-- ==== Sys2Proof/Word.lean ====
section
/-! DEFINITION. The words, bytes and complex integers of the core (00_scope.md R12, R15). -/

namespace Sys2Proof

/-- A *word* is 32 bits; bit 0 is the least significant bit (R12). -/
abbrev Word := BitVec 32

/-- A *byte* is 8 bits (R12). -/
abbrev Byte := BitVec 8

/-- A soft bit: a signed integer in `[-127, 127]`; positive means bit 1, negative bit 0, zero no
information (20_memory.md R69). The range is an invariant, not part of the type. -/
abbrev Soft := Int

/-- A complex integer: a pair `(re, im)` of integers (R15). -/
structure CInt where
  re : Int
  im : Int
deriving DecidableEq, Repr, Inhabited

/-- The complex integer `(0, 0)`. -/
def CInt.zero : CInt := ⟨0, 0⟩

/-- `cadd`, componentwise (R15). -/
def CInt.add (y z : CInt) : CInt := ⟨y.re + z.re, y.im + z.im⟩

/-- `csub`, componentwise (R15). -/
def CInt.sub (y z : CInt) : CInt := ⟨y.re - z.re, y.im - z.im⟩

/-- `cmul((a,b),(c,d)) = (a*c - b*d, a*d + b*c)` (R15). -/
def CInt.mul (y z : CInt) : CInt := ⟨y.re * z.re - y.im * z.im, y.re * z.im + y.im * z.re⟩

/-- `conj((a,b)) = (a,-b)` (R15). -/
def CInt.conj (z : CInt) : CInt := ⟨z.re, -z.im⟩

/-- `cmulconj(y, z) = cmul(y, conj(z))` (R15). -/
def CInt.mulConj (y z : CInt) : CInt := y.mul z.conj

/-- `norm2((a,b)) = a*a + b*b` (R15). -/
def CInt.norm2 (z : CInt) : Int := z.re * z.re + z.im * z.im

end Sys2Proof
end

