-- ==== Sys2Proof/Config.lean ====
section
/-! DEFINITION. The configuration record `Cfg` (00_scope.md R6 to R10) and the free values of the model:
the configuration functions (R11) and the choices the spec leaves undetermined
(93_implementation_defined.md U1, U2, U7 to U9). -/

namespace Sys2Proof

/-- One puncturing segment of a schedule: `len` blocks of 128 mother bits with the vector `PI[pi]`
(43_viterbi_fic.md R215). -/
structure Segment where
  len : Nat
  pi : Nat
deriving DecidableEq, Repr, Inhabited

/-- The immutable configuration record (R6 to R10). Every field may have any value that meets R349;
the defaults are in Machine/Defaults.lean. -/
structure Cfg where
  /-- Transmission mode selector, 1 to 4 (R6). -/
  mode : Nat
  /-- `L`, symbols per frame without the null symbol (R6). -/
  symbols : Nat
  /-- `K`, carriers (R6). -/
  carriers : Nat
  /-- `T_NULL`, null-symbol samples (R6). -/
  tNull : Nat
  /-- `LOG2_TU`, with `T_U = 2^LOG2_TU` the FFT size (R6, R8). -/
  log2Tu : Nat
  /-- `T_G`, guard samples (R6). -/
  tG : Nat
  /-- `FIC_SYMS` (R7). -/
  ficSyms : Nat
  /-- `FIC_BLOCKS` (R7). -/
  ficBlocks : Nat
  /-- `FIC_PUNCT` (R7). -/
  ficPunct : Nat
  /-- `FIC_INFO` (R7). -/
  ficInfo : Nat
  /-- `FIBS_PER_BLOCK` (R7). -/
  fibsPerBlock : Nat
  /-- `CIFS_PER_FRAME` (R7). -/
  cifsPerFrame : Nat
  /-- `RB_DEPTH` (R9). -/
  rbDepth : Nat
  /-- `W_NULL` (R9). -/
  wNull : Nat
  /-- `LVL_SHIFT` (R9). -/
  lvlShift : Nat
  /-- `N_WARM` (R9). -/
  nWarm : Nat
  /-- `DIP_NUM` (R9). -/
  dipNum : Nat
  /-- `DIP_DEN` (R9). -/
  dipDen : Nat
  /-- `END_NUM` (R9). -/
  endNum : Nat
  /-- `END_DEN` (R9). -/
  endDen : Nat
  /-- `NULL_TIMEOUT` (R9). -/
  nullTimeout : Nat
  /-- `DIP_MAX` (R9). -/
  dipMax : Nat
  /-- `PRS_SKIP` (R9). -/
  prsSkip : Nat
  /-- `S_MAX` (R9). -/
  sMax : Nat
  /-- `CORR_NUM` (R9). -/
  corrNum : Nat
  /-- `CORR_DEN` (R9). -/
  corrDen : Nat
  /-- `N_LOSS` (R9). -/
  nLoss : Nat
  /-- `PRS_FAIL_MAX` (R9). -/
  prsFailMax : Nat
  /-- `CP_LEN` (R9). -/
  cpLen : Nat
  /-- `LOOP_NUM` (R9). -/
  loopNum : Nat
  /-- `LOOP_DEN` (R9). -/
  loopDen : Nat
  /-- `NULL_CAP_OFS` (R9). -/
  nullCapOfs : Nat
  /-- `NULL_CAP_LEN` (R9). -/
  nullCapLen : Nat
  /-- `CONST_DECIM` (R9). -/
  constDecim : Nat
  /-- `KCONV`, the constraint length (R10). -/
  kconv : Nat
  /-- `POLYS`: four tap sets, each the list of its delays (R10, 43_viterbi_fic.md R210). -/
  polys : List (List Nat)
  /-- `PI[1..24]`: row `i - 1` is `PI[i]`, bit 0 first; true keeps the mother bit (R10, R213). -/
  piTable : List (List Bool)
  /-- `PI_TAIL` (R10, R214). -/
  piTail : List Bool
  /-- `FIC_SEGS` (R10, R228). -/
  ficSegs : List Segment
  /-- `FMAP[0..K-1]` (R10, 42_demod.md R188). -/
  fmap : List Int
  /-- `PRSQ[k]` for the carriers in rising order `-K/2, …, -1, 1, …, K/2`, in quarter turns
  (R10, 41_sync.md R152). -/
  prsq : List (BitVec 2)
deriving DecidableEq, Repr, Inhabited

/-- `T_U`, the FFT size in samples (R8). -/
def Cfg.tU (c : Cfg) : Nat := 2 ^ c.log2Tu
/-- `T_S = T_U + T_G`, the symbol length (R8). -/
def Cfg.tS (c : Cfg) : Nat := c.tU + c.tG
/-- `T_F = T_NULL + L * T_S`, the frame length (R8). -/
def Cfg.tF (c : Cfg) : Nat := c.tNull + c.symbols * c.tS
/-- `N_HEAD = 1 + FIC_SYMS` (R8). -/
def Cfg.nHead (c : Cfg) : Nat := 1 + c.ficSyms
/-- `N_TAIL`, the number of ones of `PI_TAIL` (R214). -/
def Cfg.nTail (c : Cfg) : Nat := c.piTail.count true
/-- `NST = 2^(KCONV-1)`, the number of trellis states (R210). -/
def Cfg.nst (c : Cfg) : Nat := 2 ^ (c.kconv - 1)

/-- `FIB_BITS` (R7). -/
def fibBits : Nat := 256
/-- `CIF_BITS` (R7). -/
def cifBits : Nat := 55296
/-- `CIF_CU`, Capacity Units per CIF (R7). -/
def cifCu : Nat := 864
/-- `CU_BITS`, soft bits per Capacity Unit (R7). -/
def cuBits : Nat := 64

/-- The record of a TII measurement (42_demod.md R202). -/
structure TiiRecord where
  comb : Word
  pattern : Word
  error : Word
  delay : Word
deriving DecidableEq, Repr, Inhabited

/-- The four agents (00_scope.md R18). -/
inductive Agent where
  /-- `CMD`, the command executor. -/
  | cmd
  /-- `PIPE`, the demodulation worker. -/
  | pipe
  /-- `SRC`, the sample source. -/
  | src
  /-- `HOST`, the controller. -/
  | host
deriving DecidableEq, Repr, Inhabited

/-- One choice of the interleaving: which agent steps next, with the input it brings
(00_scope.md R18, 93_implementation_defined.md U8, U9). -/
inductive Turn where
  /-- `CMD` serves the head of `CMDQ` (40_commands.md R110). -/
  | cmd
  /-- `PIPE` takes its next step (10_state.md R22). -/
  | pipe
  /-- `SRC` pushes the sample word `w` (20_memory.md R63). -/
  | push (w : Word)
  /-- `SRC` declares `m` samples lost (20_memory.md R64). -/
  | miss (m : Nat)
  /-- `SRC` fails (60_exceptions.md R318). -/
  | fail
  /-- `HOST` appends the command word `w` to `CMDQ` (20_memory.md R65). -/
  | command (w : Word)
  /-- `HOST` collects the oldest response (20_memory.md R65; log 3). -/
  | collect
deriving DecidableEq, Repr, Inhabited

/-- Free value (log 5): the FFT of a sample sequence, by output index, apart from FFT_ZERO
(R11, 42_demod.md R181). -/
opaque Config.freeFft : Cfg → List CInt → Nat → CInt

/-- Free value (log 5): the rotation of a sample, apart from ROT_ID and ROT_ZERO (R11, 42_demod.md R182). -/
opaque Config.freeRot : Cfg → CInt → Word → CInt

/-- Free value (log 5): the argument of a complex integer, apart from ARG_ZERO and ARG_POS
(R11, 42_demod.md R183). -/
opaque Config.freeArg : Cfg → CInt → BitVec 16

/-- Free value (log 6): the impulse-response vector of an FFT output (R11, 42_demod.md R199). -/
opaque Config.freeImpulse : Cfg → List CInt → List Word

/-- Free value (log 6): the TII detector (R11, 42_demod.md R202). -/
opaque Config.freeTii : Cfg → List Word → Option TiiRecord

/-- Free value (log 2): the turns, any agents' and with any inputs, that come before the turn that ends round
`k` of the interleaving (U8, U9). -/
opaque Config.freeTurns : Nat → List Turn

/-- Free value (log 2): the input of the agent whose turn ends round `k` of the interleaving (U9). -/
opaque Config.freeTurn : Nat → Turn

/-- Free value (log 7): for the serving order of the sessions within one CIF, the place at which a
session is inserted among those already placed (U7). -/
opaque Config.servePlace : Nat → Nat → Nat

end Sys2Proof
end

