-- ==== Sys2Proof/Machine/Defaults.lean ====
section
/-! DEFINITION. The default contents of `Cfg` (00_scope.md R7, R9, R10) and the constraints any `Cfg` must
satisfy (70_reset_and_hazards.md R349). The numbers of R7, R152, R188, R210, R213, R214, R228 are the
spec's own defaults, which it marks as written from general knowledge (log 14). -/

namespace Sys2Proof

/-- The carriers in rising order: `-K/2, …, -1, 1, …, K/2` (R19). -/
def carrierList (k : Nat) : List Int :=
  (List.range k).map fun j : Nat =>
    if j < k / 2 then (j : Int) - ((k / 2 : Nat) : Int) else (j : Int) - ((k / 2 : Nat) : Int) + 1

/-- For each group of four bits of a puncturing vector, its place in the order 0, 4, 2, 6, 1, 5, 3, 7
(43_viterbi_fic.md R213). -/
def groupRank : List Nat := [0, 4, 2, 6, 1, 5, 3, 7]

/-- `PI[i]` by the construction of R213: every group starts as `1000`; the second, third and fourth
bits of the groups are set in rank order. -/
def piVector (i : Nat) : List Bool :=
  groupRank.flatMap fun r => [true, decide (r < i), decide (r + 8 < i), decide (r + 16 < i)]

/-- The rows `PI[1]` to `PI[24]` (R213). -/
def piDefault : List (List Bool) := (List.range 24).map fun i => piVector (i + 1)

/-- `PI_TAIL`, `1100` six times (R214). -/
def piTailDefault : List Bool := (List.replicate 6 [true, true, false, false]).flatten

/-- The four tap sets, octal 133, 171, 145, 133 (R210). -/
def polysDefault : List (List Nat) := [[0, 2, 3, 5, 6], [0, 1, 2, 3, 6], [0, 1, 4, 6], [0, 2, 3, 5, 6]]

/-- `n` values of the sequence of 42_demod.md R188 from the value `d` on:
`PI(j) = (13 * PI(j-1) + T_U/4 - 1) mod T_U`. -/
def interleaveSeq (tU : Nat) : Nat → Nat → List Nat
  | 0, _ => []
  | n + 1, d => d :: interleaveSeq tU n ((13 * d + tU / 4 - 1) % tU)

/-- The default `FMAP`: the values `d` of the sequence that lie on a carrier, less `T_U/2` (R188). -/
def fmapDefault (tU k : Nat) : List Int :=
  ((interleaveSeq tU tU 0).filter fun d =>
      decide (tU / 2 - k / 2 ≤ d) && decide (d ≤ tU / 2 + k / 2) && d != tU / 2).map
    fun d : Nat => (d : Int) - ((tU / 2 : Nat) : Int)

/-- The first 16 entries of `H[0..3]` (41_sync.md R152); each row repeats them once. -/
def prsRows : List (List Nat) :=
  [[0, 2, 0, 0, 0, 0, 1, 1, 2, 0, 0, 0, 2, 2, 1, 1],
   [0, 3, 2, 3, 0, 1, 3, 0, 2, 1, 2, 3, 2, 3, 3, 0],
   [0, 0, 0, 2, 0, 2, 1, 3, 2, 2, 0, 2, 2, 0, 1, 3],
   [0, 1, 2, 1, 0, 3, 3, 2, 2, 3, 2, 1, 2, 1, 3, 2]]

/-- The pairs `(i, n)` of the 48 rows `(k0, i, n)` of R152, in rising order of `k0`: 24 rows of 32
negative carriers from -768, then 24 rows of 32 positive carriers from 1. -/
def prsBlocks : List (Nat × Nat) :=
  [
   (0, 1), (1, 2), (2, 0), (3, 1), (0, 3), (1, 2),
   (2, 2), (3, 3), (0, 2), (1, 1), (2, 2), (3, 3),
   (0, 1), (1, 2), (2, 3), (3, 3), (0, 2), (1, 2),
   (2, 2), (3, 1), (0, 1), (1, 3), (2, 1), (3, 2),
   (0, 3), (3, 1), (2, 1), (1, 1), (0, 2), (3, 2),
   (2, 1), (1, 0), (0, 2), (3, 2), (2, 3), (1, 3),
   (0, 0), (3, 2), (2, 1), (1, 3), (0, 3), (3, 3),
   (2, 3), (1, 0), (0, 3), (3, 0), (2, 1), (1, 1)]

/-- `PRSQ` of Mode I in rising order of the carriers: `PRSQ[k] = (H[i][k - k0] + n) mod 4` (R152). -/
def prsqModeI : List (BitVec 2) :=
  prsBlocks.flatMap fun b =>
    (prsRows.getD b.1 [] ++ prsRows.getD b.1 []).map fun h => BitVec.ofNat 2 (h + b.2)

/-- The constants of a transmission mode (the columns of R7) and its FIC schedule (R228). -/
structure ModeRow where
  mode : Nat
  symbols : Nat
  carriers : Nat
  tNull : Nat
  log2Tu : Nat
  tG : Nat
  ficSyms : Nat
  ficBlocks : Nat
  ficPunct : Nat
  ficInfo : Nat
  fibsPerBlock : Nat
  cifsPerFrame : Nat
  ficSegs : List Segment
deriving DecidableEq, Repr

/-- Mode I (R7, R228). -/
def modeRowI : ModeRow :=
  ⟨1, 76, 1536, 2656, 11, 504, 3, 4, 2304, 768, 3, 4, [⟨21, 16⟩, ⟨3, 15⟩]⟩
/-- Mode II (R7, R228). -/
def modeRowII : ModeRow :=
  ⟨2, 76, 384, 664, 9, 126, 3, 1, 2304, 768, 3, 1, [⟨21, 16⟩, ⟨3, 15⟩]⟩
/-- Mode III (R7, R228). -/
def modeRowIII : ModeRow :=
  ⟨3, 153, 192, 345, 8, 63, 8, 1, 3072, 1024, 4, 1, [⟨29, 16⟩, ⟨3, 15⟩]⟩
/-- Mode IV (R7, R228). -/
def modeRowIV : ModeRow :=
  ⟨4, 76, 768, 1328, 10, 252, 3, 2, 2304, 768, 3, 2, [⟨21, 16⟩, ⟨3, 15⟩]⟩

/-- The `Cfg` of a mode with the defaults of R9 and R10; the phase-reference table is an argument because
the spec gives a default for Mode I only (R152, U6). -/
def cfgOfMode (r : ModeRow) (prsq : List (BitVec 2)) : Cfg where
  mode := r.mode
  symbols := r.symbols
  carriers := r.carriers
  tNull := r.tNull
  log2Tu := r.log2Tu
  tG := r.tG
  ficSyms := r.ficSyms
  ficBlocks := r.ficBlocks
  ficPunct := r.ficPunct
  ficInfo := r.ficInfo
  fibsPerBlock := r.fibsPerBlock
  cifsPerFrame := r.cifsPerFrame
  rbDepth := 16384
  wNull := 2 ^ r.log2Tu / 32
  lvlShift := 14
  nWarm := 4 * 2 ^ 14
  dipNum := 1
  dipDen := 2
  endNum := 3
  endDen := 4
  nullTimeout := 2 * (r.tNull + r.symbols * (2 ^ r.log2Tu + r.tG))
  dipMax := 2 * r.tNull
  prsSkip := r.tG - 2 ^ r.log2Tu / 32 - r.tG / 8
  sMax := min 32 (2 ^ r.log2Tu / 2 - r.carriers / 2 - 2)
  corrNum := 16
  corrDen := 1
  nLoss := 3
  prsFailMax := 3
  cpLen := r.tG / 2
  loopNum := 1
  loopDen := 8
  nullCapOfs := r.tG / 4
  nullCapLen := r.tNull - r.tG / 2
  constDecim := 16
  kconv := 7
  polys := polysDefault
  piTable := piDefault
  piTail := piTailDefault
  ficSegs := r.ficSegs
  fmap := fmapDefault (2 ^ r.log2Tu) r.carriers
  prsq := prsq

/-- The default configuration: Mode I with every default of R7, R9 and R10. -/
def cfgModeI : Cfg := cfgOfMode modeRowI prsqModeI

/-- `SUML` of a schedule: the sum of the segment lengths (R215). -/
def segSum (segs : List Segment) : Nat := (segs.map (·.len)).sum

/-- `NPUNCT` of a schedule: `sum of L_j * 4 * (8 + PI_j) + N_TAIL` (R215). -/
def punctCount (c : Cfg) (segs : List Segment) : Nat :=
  (segs.map fun g => g.len * 4 * (8 + g.pi)).sum + c.nTail

/-- The constraints from 00_scope.md R8 and from the field widths (R349). -/
abbrev Cfg.FrameOk (c : Cfg) : Prop :=
  c.log2Tu ≤ 16 ∧ c.carriers % 2 = 0 ∧ 0 < c.carriers ∧ c.carriers < c.tU ∧
  c.ficSyms * 2 * c.carriers = c.ficBlocks * c.ficPunct ∧ c.ficInfo = c.fibsPerBlock * fibBits ∧
  c.nHead ≤ c.symbols ∧ (c.symbols - c.nHead) * 2 * c.carriers = c.cifsPerFrame * cifBits ∧
  (c.symbols - c.nHead) % c.cifsPerFrame = 0 ∧
  2 ≤ c.symbols ∧ c.symbols ≤ 255 ∧ c.ficBlocks * c.fibsPerBlock ≤ 256 ∧
  1 ≤ c.mode ∧ c.mode ≤ 4

/-- The constraints from 00_scope.md R9 (R349). -/
abbrev Cfg.FrontOk (c : Cfg) : Prop :=
  1 ≤ c.wNull ∧ c.cpLen ≤ c.prsSkip ∧ c.cpLen ≤ c.tG ∧ 2 * c.sMax < c.tU ∧
  0 < c.dipNum ∧ 0 < c.dipDen ∧ 0 < c.endNum ∧ 0 < c.endDen ∧ c.dipNum * c.endDen ≤ c.endNum * c.dipDen ∧
  0 < c.loopNum ∧ c.loopNum ≤ c.loopDen ∧ 0 < c.corrDen ∧ 1 ≤ c.nLoss ∧ 1 ≤ c.prsFailMax ∧
  1 ≤ c.nullTimeout ∧ c.lvlShift ≤ 16 ∧ 1 ≤ c.nullCapLen ∧ c.nullCapLen ≤ 65535 ∧
  c.nullCapOfs + c.nullCapLen + c.cpLen ≤ c.tNull + c.tG ∧ 1 ≤ c.constDecim ∧
  (c.carriers + c.constDecim - 1) / c.constDecim ≤ 65535 ∧ c.tNull + c.tG + c.tU ≤ c.rbDepth

/-- The constraints from 43_viterbi_fic.md on the code tables (R349); the puncturing vectors keep
`8 + i` of 32 bits (R213). -/
abbrev Cfg.CodeOk (c : Cfg) : Prop :=
  2 ≤ c.kconv ∧ c.polys.length = 4 ∧ (∀ g ∈ c.polys, g.Nodup ∧ 0 ∈ g ∧ ∀ d ∈ g, d < c.kconv) ∧
  c.piTable.length = 24 ∧
  (∀ i ∈ List.range 24, (c.piTable.getD i []).length = 32 ∧ (c.piTable.getD i []).count true = 9 + i) ∧
  c.piTail.length = 4 * (c.kconv - 1) ∧ (∀ g ∈ c.ficSegs, 1 ≤ g.pi ∧ g.pi ≤ 24) ∧
  punctCount c c.ficSegs = c.ficPunct ∧ 32 * segSum c.ficSegs = c.ficInfo

/-- The constraints from 42_demod.md R188 and 41_sync.md R152: `FMAP` is a bijection onto the carriers and
`PRSQ` has an entry, by its type in 0..3, for every carrier (R349). -/
abbrev Cfg.TablesOk (c : Cfg) : Prop :=
  c.fmap.Perm (carrierList c.carriers) ∧ c.prsq.length = c.carriers

/-- What must be true of `Cfg` before any rule holds (R349). -/
abbrev Cfg.WellFormed (c : Cfg) : Prop := c.FrameOk ∧ c.FrontOk ∧ c.CodeOk ∧ c.TablesOk

end Sys2Proof
end

