-- ==== Sys2Proof/Machine/Numeric.lean ====
section
/-! DEFINITION. Sequences, packing, samples and the configuration functions with their named properties
(00_scope.md R11 to R16, 20_memory.md R67, R68, 30_encoding.md R104, 42_demod.md R181 to R183). -/

namespace Sys2Proof.Machine

/-- `v[a..b)`, the entries of indices `a ≤ i < b` (R13). -/
def slice {α : Type} (v : List α) (a b : Nat) : List α := (v.drop a).take (b - a)

/-- `jpow(q)`: `(1,0)`, `(0,1)`, `(-1,0)`, `(0,-1)` for `q` = 0, 1, 2, 3 (R15). -/
def jpow (q : BitVec 2) : CInt :=
  match q.toNat with
  | 0 => ⟨1, 0⟩
  | 1 => ⟨0, 1⟩
  | 2 => ⟨-1, 0⟩
  | _ => ⟨0, -1⟩

/-- The sum of a sequence of complex integers. -/
def csum (zs : List CInt) : CInt := zs.foldl CInt.add CInt.zero

/-- `sample(w)`: `I` in bits 15:0, `Q` in bits 31:16, each two's complement (R104). -/
def sample (w : Word) : CInt := ⟨(w.extractLsb' 0 16).toInt, (w.extractLsb' 16 16).toInt⟩

/-- `energy(w) = norm2(sample(w))` (R104). -/
def energy (w : Word) : Nat := (sample w).norm2.toNat

/-- The sum of the energies of a sequence of sample words. -/
def energySum (ws : List Word) : Nat := (ws.map energy).sum

/-- One byte from up to eight bits, most significant first: `sum of b[i] << (7 - i)` (R13, R67). -/
def packByte (bs : List Bool) : Byte :=
  BitVec.ofNat 8 ((List.range 8).map fun i => if bs.getD i false then 2 ^ (7 - i) else 0).sum

/-- `n` bytes packed from a bit sequence (R13). -/
def packBytesN : Nat → List Bool → List Byte
  | 0, _ => []
  | n + 1, bs => packByte bs :: packBytesN n (bs.drop 8)

/-- `pack`: the bytes of a bit sequence whose length is a multiple of 8 (R13, R67). -/
def packBytes (bs : List Bool) : List Byte := packBytesN (bs.length / 8) bs

/-- The eight bits of a byte, most significant first (R13). -/
def byteBits (b : Byte) : List Bool := (List.range 8).map fun i => b.getLsbD (7 - i)

/-- Unpacking, the inverse of `packBytes` (R13). -/
def unpackBytes (bs : List Byte) : List Bool := bs.flatMap byteBits

/-- A word from up to four bytes, the first in bits 7:0; missing bytes are zero (20_memory.md R68). -/
def packWord (bs : List Byte) : Word := bs.getD 3 0 ++ bs.getD 2 0 ++ bs.getD 1 0 ++ bs.getD 0 0

/-- `n` words packed from a byte sequence (R68). -/
def packWordsN : Nat → List Byte → List Word
  | 0, _ => []
  | n + 1, bs => packWord bs :: packWordsN n (bs.drop 4)

/-- `ceil(n / 4)` words for a byte sequence of length `n` (R68). -/
def packWords (bs : List Byte) : List Word := packWordsN ((bs.length + 3) / 4) bs

/-- A byte payload: the length word, then the packed words (30_encoding.md R100). -/
def bytePayload (bs : List Byte) : List Word := BitVec.ofNat 32 bs.length :: packWords bs

/-- `fft`: any function with FFT_ZERO that yields `T_U` outputs (42_demod.md R181; log 5). -/
def fft (c : Cfg) (x : List CInt) : List CInt :=
  if x.all (· == CInt.zero) then List.replicate c.tU CInt.zero
  else (List.range c.tU).map (Config.freeFft c x)

/-- `rot`: any function with ROT_ID and ROT_ZERO (42_demod.md R182; log 5). -/
def rot (c : Cfg) (x : CInt) (p : Word) : CInt :=
  if p = 0 then x else if x = CInt.zero then CInt.zero else Config.freeRot c x p

/-- `arg16`: any function into `[-32768, 32767]` with ARG_ZERO and ARG_POS (42_demod.md R183; log 5). -/
def arg16 (c : Cfg) (z : CInt) : Int :=
  if z.im = 0 ∧ 0 ≤ z.re then 0 else (Config.freeArg c z).toInt

/-- `impulse`: any function whose result has at most 65535 words (42_demod.md R199; log 6). -/
def impulse (c : Cfg) (y : List CInt) : List Word := (Config.freeImpulse c y).take 65535

/-- `tii`: any function (42_demod.md R202; log 6). -/
def tii (c : Cfg) (nullvec : List Word) : Option TiiRecord := Config.freeTii c nullvec

/-- `bin(k) = k mod T_U` (41_sync.md R153). -/
def bin (c : Cfg) (k : Int) : Nat := (k % (c.tU : Int)).toNat

/-- The output of an FFT at the bin of carrier `k`. -/
def binAt (c : Cfg) (y : List CInt) (k : Int) : CInt := y.getD (bin c k) CInt.zero

end Sys2Proof.Machine
end

