-- ==== Sys2Proof/Syntax.lean ====
section
/-! DEFINITION. The eleven commands of WDC-CMD version 1, one constructor per row of the opcode map
(30_encoding.md R92, spec/opcode_table.json). -/

namespace Sys2Proof

/-- A command. An index operand is the 8-bit field `a` of the word (R90, R91), so that a term whose
index is out of range can be written down; `Instr.WellFormed` says which indices are in range. -/
inductive Instr where
  /-- `NOP` (40_commands.md R111). -/
  | nop
  /-- `RESTART #doScan` (R112). -/
  | restart (doScan : Bool)
  /-- `STOP` (R113). -/
  | stop
  /-- `LDPL Pi, #imm16` (R115). -/
  | ldpl (i : BitVec 8) (imm16 : BitVec 16)
  /-- `LDPH Pi, #imm16` (R116). -/
  | ldph (i : BitVec 8) (imm16 : BitVec 16)
  /-- `RDP Pi` (R117). -/
  | rdp (i : BitVec 8)
  /-- `WRCSR csr` (R121). -/
  | wrcsr (csr : BitVec 8)
  /-- `RDCSR csr` (R122). -/
  | rdcsr (csr : BitVec 8)
  /-- `SOPEN #id` (R118). -/
  | sopen (id : BitVec 8)
  /-- `SCLOSE #id` (R123). -/
  | sclose (id : BitVec 8)
  /-- `SSTAT #id` (R124). -/
  | sstat (id : BitVec 8)
deriving DecidableEq, Repr

end Sys2Proof
end

