-- ==== Sys2Proof/WellFormed.lean ====
section
/-! DEFINITION. The operand constraints of the opcode map that a term of `Instr` can still violate
(30_encoding.md R92, R93). -/

namespace Sys2Proof

/-- The field constraints of R92: a parameter-register index is at most 7, a subchannel index at most
63. A CSR index is never malformed (R93); the constraints on unused fields and on `RESTART`'s
`imm16[15:1]` cannot be violated by a term. -/
abbrev Instr.WellFormed : Instr → Prop
  | .nop => True
  | .restart _ => True
  | .stop => True
  | .ldpl i _ => i.toNat ≤ 7
  | .ldph i _ => i.toNat ≤ 7
  | .rdp i => i.toNat ≤ 7
  | .wrcsr _ => True
  | .rdcsr _ => True
  | .sopen id => id.toNat ≤ 63
  | .sclose id => id.toNat ≤ 63
  | .sstat id => id.toNat ≤ 63

end Sys2Proof
end

