-- ==== Sys2Proof/Decode.lean ====
section
/-! DEFINITION. The decoder of command words (30_encoding.md R90 to R95), the encoder, the assembler
text (R105) and the pseudo-instructions (R106). -/

namespace Sys2Proof

/-- Field `op`, bits 31:24 (R90). -/
def opField (w : Word) : BitVec 8 := w.extractLsb' 24 8

/-- Field `a`, bits 23:16 (R90). -/
def aField (w : Word) : BitVec 8 := w.extractLsb' 16 8

/-- Field `imm16`, bits 15:0 (R90). -/
def immField (w : Word) : BitVec 16 := w.extractLsb' 0 16

/-- The three outcomes of decoding (R93). -/
inductive Decoded where
  /-- The word is the command of its row. -/
  | command (i : Instr)
  /-- `op` is not in the table. -/
  | illegal
  /-- `op` is in the table and a field constraint of its row is violated. -/
  | malformed
deriving DecidableEq, Repr

/-- A row whose constraint is `ok`: the command if it holds, malformed if not (R93). -/
def Decoded.check (ok : Bool) (i : Instr) : Decoded := if ok then .command i else .malformed

/-- Decoding, total on all 2^32 words (R92, R93): the opcode selects the row, then the row's field
constraints are checked. -/
def decode (w : Word) : Decoded :=
  let a := aField w
  let imm := immField w
  match (opField w).toNat with
  | 0x00 => .check (a == 0 && imm == 0) .nop
  | 0x01 => .check (a == 0 && imm.extractLsb' 1 15 == 0) (.restart (imm.getLsbD 0))
  | 0x02 => .check (a == 0 && imm == 0) .stop
  | 0x03 => .check (decide (a.toNat ≤ 7)) (.ldpl a imm)
  | 0x04 => .check (decide (a.toNat ≤ 7)) (.ldph a imm)
  | 0x05 => .check (decide (a.toNat ≤ 7) && imm == 0) (.rdp a)
  | 0x06 => .check (imm == 0) (.wrcsr a)
  | 0x07 => .check (imm == 0) (.rdcsr a)
  | 0x08 => .check (decide (a.toNat ≤ 63) && imm == 0) (.sopen a)
  | 0x09 => .check (decide (a.toNat ≤ 63) && imm == 0) (.sclose a)
  | 0x0A => .check (decide (a.toNat ≤ 63) && imm == 0) (.sstat a)
  | _ => .illegal

/-- The command word with the fields `op`, `a`, `imm16` (R90). -/
def commandWord (op a : BitVec 8) (imm16 : BitVec 16) : Word := op ++ a ++ imm16

/-- The opcode of a command (R92). -/
def Instr.opcode : Instr → BitVec 8
  | .nop => 0x00
  | .restart _ => 0x01
  | .stop => 0x02
  | .ldpl _ _ => 0x03
  | .ldph _ _ => 0x04
  | .rdp _ => 0x05
  | .wrcsr _ => 0x06
  | .rdcsr _ => 0x07
  | .sopen _ => 0x08
  | .sclose _ => 0x09
  | .sstat _ => 0x0A

/-- The word of a command, from the encodings of 40_commands.md R111 to R124. -/
def encode : Instr → Word
  | .nop => commandWord 0x00 0 0
  | .restart doScan => commandWord 0x01 0 (if doScan then 1 else 0)
  | .stop => commandWord 0x02 0 0
  | .ldpl i imm16 => commandWord 0x03 i imm16
  | .ldph i imm16 => commandWord 0x04 i imm16
  | .rdp i => commandWord 0x05 i 0
  | .wrcsr csr => commandWord 0x06 csr 0
  | .rdcsr csr => commandWord 0x07 csr 0
  | .sopen id => commandWord 0x08 id 0
  | .sclose id => commandWord 0x09 id 0
  | .sstat id => commandWord 0x0A id 0

/-- The 32-bit command word whose low `nbits` bits are those of `w` and whose other bits are 0. A command
is exactly one word (R90) and the core stores it as a word, not as bytes, so there is no byte order
to apply (log 4). -/
def tableWord (nbits w : Nat) : Word := BitVec.ofNat 32 (w % 2 ^ nbits)

/-- The command the decoder reads from a word of the opcode table; `none` for an illegal or malformed word. -/
def decodeTableWord (nbits w : Nat) : Option Instr :=
  match decode (tableWord nbits w) with
  | .command i => some i
  | .illegal => none
  | .malformed => none

/-- The name of a parameter register in assembler text (R105). -/
def asmReg (i : BitVec 8) : String := "P" ++ toString i.toNat

/-- An immediate, subchannel or CSR index in assembler text: `#` and a decimal number (R105). -/
def asmNum (n : Nat) : String := "#" ++ toString n

/-- The names of the sixteen implemented CSRs, by index (R105, 10_state.md R28 to R38). -/
def csrNames : List String :=
  ["ID", "CTRL", "STATUS", "COARSE", "FINE", "MISSED", "FRAME_CNT", "BAD_FRAMES", "FIC_OK", "FIC_FAIL",
   "SLEVEL_LO", "SLEVEL_HI", "CIF_CNT", "N_SESS", "MODE", "PRS_FAILS"]

/-- A CSR operand in assembler text: its name, or `#index` where it has none (R105). -/
def asmCsr (a : BitVec 8) : String := csrNames.getD a.toNat (asmNum a.toNat)

/-- A command in the assembler syntax of R105. -/
def assemblyText : Instr → String
  | .nop => "NOP"
  | .restart doScan => "RESTART " ++ asmNum (if doScan then 1 else 0)
  | .stop => "STOP"
  | .ldpl i imm16 => "LDPL " ++ asmReg i ++ ", " ++ asmNum imm16.toNat
  | .ldph i imm16 => "LDPH " ++ asmReg i ++ ", " ++ asmNum imm16.toNat
  | .rdp i => "RDP " ++ asmReg i
  | .wrcsr csr => "WRCSR " ++ asmCsr csr
  | .rdcsr csr => "RDCSR " ++ asmCsr csr
  | .sopen id => "SOPEN " ++ asmNum id.toNat
  | .sclose id => "SCLOSE " ++ asmNum id.toNat
  | .sstat id => "SSTAT " ++ asmNum id.toNat

/-- `LDP Pi, #imm32`: `LDPL` of the low half, then `LDPH` of the high half (R106). -/
def pseudoLdp (i : BitVec 8) (imm32 : Word) : List Instr :=
  [.ldpl i (imm32.extractLsb' 0 16), .ldph i (imm32.extractLsb' 16 16)]

/-- `SETCTRL #v`: `LDPL P0, #v`, then `WRCSR CTRL` (R106). -/
def pseudoSetctrl (v : BitVec 16) : List Instr := [.ldpl 0 v, .wrcsr 0x01]

/-- `SUBSCRIBE #id, p0, …, p5`: six `LDP`, then `SOPEN #id` (R106). -/
def pseudoSubscribe (id : BitVec 8) (p0 p1 p2 p3 p4 p5 : Word) : List Instr :=
  pseudoLdp 0 p0 ++ pseudoLdp 1 p1 ++ pseudoLdp 2 p2 ++ pseudoLdp 3 p3 ++ pseudoLdp 4 p4 ++ pseudoLdp 5 p5
    ++ [.sopen id]

end Sys2Proof
end

