-- ==== Sys2Proof/Machine/State.lean ====
section
/-! DEFINITION. The state of the core (10_state.md R20 to R52), the reasons a step can stop, and the state
after reset (R53, 70_reset_and_hazards.md R340). -/

namespace Sys2Proof.Machine

/-- `SYNC_STATE`, the source's four states (R24). -/
inductive SyncState where
  /-- Code 0, `Unsynchronized`. -/
  | unsynchronized
  /-- Code 1, `AcquiringNull`. -/
  | acquiringNull
  /-- Code 2, `AcquiringPhaseReference`. -/
  | acquiringPhaseReference
  /-- Code 3, `Synchronized`. -/
  | synchronized
deriving DecidableEq, Repr

/-- `NULL_PHASE`, the phase of the null search (R45). -/
inductive NullPhase where
  /-- Code 0, `SEEK_DIP`. -/
  | seekDip
  /-- Code 1, `IN_DIP`. -/
  | inDip
deriving DecidableEq, Repr

/-- The control register `CTRL`: its four defined bits; bits 31:4 are hardwired 0 and not stored (R29). -/
structure Ctrl where
  /-- `EN_IR`, bit 0. -/
  enIr : Bool
  /-- `EN_CONST`, bit 1. -/
  enConst : Bool
  /-- `EN_NULLVEC`, bit 2. -/
  enNullvec : Bool
  /-- `EN_TII`, bit 3. -/
  enTii : Bool
deriving DecidableEq, Repr

/-- The run flags and the presence bit (R23, R25). -/
structure Flags where
  /-- `RUN`. -/
  run : Bool
  /-- `SCAN`. -/
  scan : Bool
  /-- `SRC_FAIL`. -/
  srcFail : Bool
  /-- `PRESENCE`. -/
  presence : Bool
deriving DecidableEq, Repr

/-- The counters (R33 to R36, R38, 60_exceptions.md R327). -/
structure Counters where
  /-- `MISSED`, CSR 0x05. -/
  missed : Word
  /-- `FRAME_CNT`, CSR 0x06. -/
  frameCnt : Word
  /-- `BAD_FRAMES`, CSR 0x07. -/
  badFrames : Word
  /-- `FIC_OK`, CSR 0x08. -/
  ficOk : Word
  /-- `FIC_FAIL`, CSR 0x09. -/
  ficFail : Word
  /-- `CIF_CNT`, CSR 0x0C. -/
  cifCnt : Word
  /-- `PRS_FAILS`, CSR 0x0F. -/
  prsFails : Word
deriving DecidableEq, Repr

/-- The null-detector state (R45). -/
structure Detector where
  /-- `WIN`: the energies of the last `W_NULL` samples, by slot. -/
  win : List Nat
  /-- `WPOS`: the slot the next energy overwrites. -/
  wpos : Nat
  /-- `WSUM`. -/
  wsum : Nat
  /-- `SLEVEL`, the 48-bit level integrator. -/
  slevel : BitVec 48
  /-- `LVL_AGE`, saturating at `N_WARM`. -/
  lvlAge : Nat
  /-- `NULL_PHASE`. -/
  nullPhase : NullPhase
  /-- `NS_COUNT`. -/
  nsCount : Word
  /-- `DIP_LEN`. -/
  dipLen : Word
deriving DecidableEq, Repr

/-- The frequency-corrector state (R31, R32, R46). -/
structure Corrector where
  /-- `COARSE`, CSR 0x03, signed. -/
  coarse : Word
  /-- `FINE`, CSR 0x04, signed. -/
  fine : Word
  /-- `PHASE`, in units of 2^-32 turn. -/
  phase : Word
  /-- `LAST_COARSE`, signed. -/
  lastCoarse : Word
  /-- `LAST_FINE`, signed. -/
  lastFine : Word
deriving DecidableEq, Repr

/-- The symbol state (R22, R47). -/
structure SymbolState where
  /-- `SYM_IDX`. -/
  symIdx : BitVec 8
  /-- `YPREV`. -/
  yprev : List CInt
  /-- `FICBUF`. -/
  ficbuf : List Soft
  /-- `MSCBUF`. -/
  mscbuf : List Soft
  /-- `PSIG`. -/
  psig : Nat
deriving DecidableEq, Repr

/-- A segment field pair of a descriptor (R40). -/
structure SegField where
  /-- `SEG[j].L`. -/
  len : BitVec 16
  /-- `SEG[j].PI`. -/
  pi : BitVec 5
deriving DecidableEq, Repr

/-- The descriptor of a session slot (R40). -/
structure Descriptor where
  /-- `TYPE`: 0 `RAW`, 1 `DAB`, 2 `DABPLUS`, 3 reserved. -/
  type : BitVec 2
  /-- `EDISP_EN`. -/
  edispEn : Bool
  /-- `TDI_EN`. -/
  tdiEn : Bool
  /-- `FC_EN`. -/
  fcEn : Bool
  /-- `NSEG`. -/
  nseg : BitVec 3
  /-- `START_CU`. -/
  startCu : BitVec 10
  /-- `SIZE_CU`. -/
  sizeCu : BitVec 10
  /-- `SEG[0..3]`. -/
  segs : Vector SegField 4
deriving DecidableEq, Repr

/-- An open session slot (R40, R42, R49, R50). -/
structure Session where
  desc : Descriptor
  /-- `MISMATCH`. -/
  mismatch : Bool
  /-- `ERRCODE`. -/
  errcode : BitVec 8
  /-- `TDI_CNT`. -/
  tdiCnt : BitVec 5
  /-- `TDI_H`, newest first. -/
  tdiH : List (List Soft)
  /-- `SF_FILL`. -/
  sfFill : BitVec 3
  /-- `SF_BUF`, oldest first. -/
  sfBuf : List (List Byte)
deriving DecidableEq, Repr

/-- A response record (30_encoding.md R96). -/
structure Response where
  op : BitVec 8
  status : BitVec 8
  data : Word
deriving DecidableEq, Repr

/-- An event record (30_encoding.md R98): the code, the subchannel id and the payload words; the header's
`len` is the number of payload words. -/
structure Event where
  code : BitVec 8
  sub : BitVec 8
  payload : List Word
deriving DecidableEq, Repr

/-- Why the machine stops with a fault: NEVER. The core has no trap, no halt and no undefined state: "every
input in every state has a defined next state" (93_implementation_defined.md section 1, 60_exceptions.md
R310, R314), so the type has no constructor and nothing raises it (safe). -/
inductive Fault
deriving DecidableEq, Repr

/-- Why a meaning refuses. The core's own refusals are responses with an error status and a next state
(60_exceptions.md R310, R311), never one of these. -/
inductive Refusal where
  /-- Raised by an arm of `exec` whose command has no meaning yet (safe); no arm is one. -/
  | notModelled (mnemonic : String)
deriving DecidableEq, Repr

/-- The state of the core, grouped; the last three fields and `cfg` are the model's own (log 1, log 2, log 7). -/
structure State where
  /-- The configuration record: read by every step, written by none (R20; log 1). -/
  cfg : Cfg
  /-- `P[0..7]` (R21). -/
  p : Vector Word 8
  /-- `CTRL` (R29). -/
  ctrl : Ctrl
  /-- `RUN`, `SCAN`, `SRC_FAIL`, `PRESENCE` (R23, R25). -/
  flags : Flags
  /-- `SYNC_STATE` (R24). -/
  sync : SyncState
  /-- The counters (R33 to R38). -/
  cnt : Counters
  /-- The null detector (R45). -/
  det : Detector
  /-- The frequency corrector (R31, R32, R46). -/
  freq : Corrector
  /-- The symbol state (R22, R47). -/
  sym : SymbolState
  /-- `SESS[0..63]`; an absent slot has `OPEN = 0` (R39, R42; log 8). -/
  sess : Vector (Option Session) 64
  /-- `RB`, oldest sample first (R51). -/
  rb : List Word
  /-- `CMDQ`, head first (R51). -/
  cmdq : List Word
  /-- `RSP`, oldest first (R51). -/
  rsp : List Response
  /-- `EVT`, oldest first (R51). -/
  evt : List Event
  /-- The model's own: choices of the interleaving already fixed for the next steps (log 2). -/
  turns : List Turn
  /-- The model's own: how many turns have been drawn from the schedule (log 2). -/
  tick : Nat
  /-- The model's own: how many serving orders have been drawn, one for each CIF (log 7). -/
  draws : Nat
deriving DecidableEq, Repr

/-- `CTRL` with all four enables clear (R29). -/
def Ctrl.zero : Ctrl := ⟨false, false, false, false⟩

/-- The counters at zero. -/
def Counters.zero : Counters := ⟨0, 0, 0, 0, 0, 0, 0⟩

/-- The null detector at zero, with `W_NULL` slots (R45, R53). -/
def Detector.zero (c : Cfg) : Detector := ⟨List.replicate c.wNull 0, 0, 0, 0, 0, .seekDip, 0, 0⟩

/-- The frequency corrector at zero (R46, R53). -/
def Corrector.zero : Corrector := ⟨0, 0, 0, 0, 0⟩

/-- The symbol state at reset: `SYM_IDX = 1`, everything else empty or zero (R22, R47, R53). -/
def SymbolState.initial : SymbolState := ⟨1, [], [], [], 0⟩

/-- The state after hardware reset of a core with the configuration `c` (R53, R340). -/
def State.resetWith (c : Cfg) : State where
  cfg := c
  p := Vector.replicate 8 0
  ctrl := Ctrl.zero
  flags := ⟨false, false, false, false⟩
  sync := .unsynchronized
  cnt := Counters.zero
  det := Detector.zero c
  freq := Corrector.zero
  sym := SymbolState.initial
  sess := Vector.replicate 64 none
  rb := []
  cmdq := []
  rsp := []
  evt := []
  turns := []
  tick := 0
  draws := 0

/-- The state after hardware reset of a core with the default configuration, Mode I (log 1). -/
def State.reset : State := State.resetWith cfgModeI

end Sys2Proof.Machine
end

