-- ==== Sys2Proof/Machine/Operands.lean ====
section
/-! DEFINITION. The operands of the commands: register and subchannel indices, the session descriptor
(10_state.md R40), its derived constants (R41) and its check (40_commands.md R119). -/

namespace Sys2Proof.Machine

/-- The parameter register an index operand selects; none above 7 (20_memory.md R70, 30_encoding.md R92). -/
def regOperand (a : BitVec 8) : Option (Fin 8) := if h : a.toNat < 8 then some ⟨a.toNat, h⟩ else none

/-- The session slot an index operand selects; none above 63 (30_encoding.md R92). -/
def slotOperand (a : BitVec 8) : Option (Fin 64) := if h : a.toNat < 64 then some ⟨a.toNat, h⟩ else none

/-- A segment field pair of a parameter register: `L` in bits 15:0, `PI` in bits 20:16 (R40). -/
def segField (w : Word) : SegField := ⟨w.extractLsb' 0 16, w.extractLsb' 16 5⟩

/-- `descriptor(P[0], …, P[5])` (R40). -/
def descriptor (p : Vector Word 8) : Descriptor where
  type := p[0].extractLsb' 0 2
  edispEn := p[0].getLsbD 4
  tdiEn := p[0].getLsbD 5
  fcEn := p[0].getLsbD 6
  nseg := p[0].extractLsb' 8 3
  startCu := p[1].extractLsb' 0 10
  sizeCu := p[1].extractLsb' 16 10
  segs := #v[segField p[2], segField p[3], segField p[4], segField p[5]]

/-- A segment as a member of a puncturing schedule. -/
def SegField.segment (f : SegField) : Segment := ⟨f.len.toNat, f.pi.toNat⟩

/-- `SEG[0 .. NSEG)`, the used segments (R40, R243). -/
def Descriptor.used (d : Descriptor) : List Segment := (d.segs.toList.take d.nseg.toNat).map SegField.segment

/-- `SUML` (R41). -/
def Descriptor.suml (d : Descriptor) : Nat := segSum d.used

/-- `NINFO = 32 * SUML`, decoded bits per CIF (R41). -/
def Descriptor.ninfo (d : Descriptor) : Nat := 32 * d.suml

/-- `FB = 4 * SUML`, bytes per logical frame (R41). -/
def Descriptor.fb (d : Descriptor) : Nat := 4 * d.suml

/-- `NPUNCT`, soft bits the de-puncturer consumes per CIF (R41). -/
def Descriptor.npunct (c : Cfg) (d : Descriptor) : Nat := punctCount c d.used

/-- `NSOFT = SIZE_CU * 64`, soft bits the subchannel occupies per CIF (R41). -/
def Descriptor.nsoft (d : Descriptor) : Nat := d.sizeCu.toNat * cuBits

/-- `RS_S = SUML / 6`, Reed-Solomon code words per superframe (R41). -/
def Descriptor.rsS (d : Descriptor) : Nat := d.suml / 6

/-- `check(d)`: the first `ERRCODE` of 30_encoding.md R101 that applies, else 0 (R119). -/
def checkDescriptor (c : Cfg) (d : Descriptor) : BitVec 8 :=
  if d.nseg = 0 ∨ 4 < d.nseg.toNat then 0x01
  else if d.used.any (fun g => g.pi == 0 || decide (24 < g.pi)) then 0x02
  else if d.suml = 0 then 0x03
  else if d.type = 3 then 0x04
  else if d.npunct c ≠ d.nsoft then 0x05
  else if d.type = 2 ∧ d.suml % 6 ≠ 0 then 0x06
  else 0x00

/-- `SIZE_CU = 0` or `START_CU + SIZE_CU > CIF_CU`, the range test of `SOPEN` (R118). -/
def rangeBad (d : Descriptor) : Bool := d.sizeCu == 0 || decide (cifCu < d.startCu.toNat + d.sizeCu.toNat)

/-- The Capacity-Unit ranges of two descriptors meet (R118). -/
def rangesMeet (d e : Descriptor) : Bool :=
  decide (d.startCu.toNat < e.startCu.toNat + e.sizeCu.toNat) &&
    decide (e.startCu.toNat < d.startCu.toNat + d.sizeCu.toNat)

end Sys2Proof.Machine
end

