-- ==== Sys2Proof/Machine/Ops.lean ====
section
/-! DEFINITION. The shared operations: registers, session slots, responses, refusals, events, the
level and phase of consumed samples (00_scope.md R17, 30_encoding.md R96 to R100,
60_exceptions.md R310, R311, 41_sync.md R141, R142, R151). -/

namespace Sys2Proof.Machine

/-! ### Status codes (30_encoding.md R97) -/

/-- `OK`. -/
def stOk : BitVec 8 := 0x00
/-- `OK_REUSED`. -/
def stOkReused : BitVec 8 := 0x01
/-- `ERR_NOT_OPEN`. -/
def stNotOpen : BitVec 8 := 0x02
/-- `ERR_OVERLAP`. -/
def stOverlap : BitVec 8 := 0x03
/-- `ERR_RANGE`. -/
def stRange : BitVec 8 := 0x04
/-- `ERR_OPERAND`. -/
def stOperand : BitVec 8 := 0x05
/-- `ERR_ILLEGAL_OP`. -/
def stIllegalOp : BitVec 8 := 0x06
/-- `ERR_RO`. -/
def stRo : BitVec 8 := 0x07
/-- `ERR_NOCSR`. -/
def stNoCsr : BitVec 8 := 0x08

/-! ### Records -/

/-- The two words of a response record (R96). -/
def Response.words (r : Response) : List Word := [r.op ++ r.status ++ (0 : BitVec 16), r.data]

/-- The words of an event record: the header, then the payload (R98). -/
def Event.words (e : Event) : List Word := (e.code ++ e.sub ++ BitVec.ofNat 16 e.payload.length) :: e.payload

/-- `SYNC_STATE` as its 2-bit code (10_state.md R24). -/
def SyncState.code : SyncState → BitVec 2
  | .unsynchronized => 0
  | .acquiringNull => 1
  | .acquiringPhaseReference => 2
  | .synchronized => 3

/-- A bit as a number. -/
def bitNat (b : Bool) : Nat := if b then 1 else 0

/-- `EV_SYNC_STATE(v)` (R99, 41_sync.md R178). -/
def evSyncState (v : SyncState) : Event := ⟨0x01, 0, [v.code.setWidth 32]⟩
/-- `EV_FREQ_CORR(FINE, COARSE)` (R99, 41_sync.md R164). -/
def evFreqCorr (fine coarse : Word) : Event := ⟨0x02, 0, [fine, coarse]⟩
/-- `EV_SNR(signal mean, null mean)` (R99, 42_demod.md R198). -/
def evSnr (signal null : Nat) : Event := ⟨0x03, 0, [BitVec.ofNat 32 signal, BitVec.ofNat 32 null]⟩
/-- `EV_PRESENCE(b)` (R99, 41_sync.md R179). -/
def evPresence (b : Bool) : Event := ⟨0x04, 0, [BitVec.ofNat 32 (bitNat b)]⟩
/-- `EV_IMPULSE` (R99, 42_demod.md R199). -/
def evImpulse (ws : List Word) : Event := ⟨0x05, 0, ws⟩
/-- `EV_CONST` (R99, 42_demod.md R203). -/
def evConst (ws : List Word) : Event := ⟨0x06, 0, ws⟩
/-- `EV_NULLVEC` (R99, 42_demod.md R201). -/
def evNullvec (ws : List Word) : Event := ⟨0x07, 0, ws⟩
/-- `EV_TII` (R99, 42_demod.md R202). -/
def evTii (r : TiiRecord) : Event := ⟨0x08, 0, [r.comb, r.pattern, r.error, r.delay]⟩
/-- `EV_FIC_CRC(ok, idx)`: bit 0 success, bits 15:8 the block index (R99, 43_viterbi_fic.md R231). -/
def evFicCrc (ok : Bool) (idx : Nat) : Event :=
  ⟨0x09, 0, [(0 : BitVec 16) ++ BitVec.ofNat 8 idx ++ BitVec.ofNat 8 (bitNat ok)]⟩
/-- `EV_FIB(fib)` (R99, 43_viterbi_fic.md R232). -/
def evFib (fib : List Byte) : Event := ⟨0x0A, 0, bytePayload fib⟩
/-- The `sub` field of a session's events (R98). -/
def subField (id : Fin 64) : BitVec 8 := BitVec.ofNat 8 id.val
/-- `EV_SUBCH_FRAME(id, fr)` (R99, 44_msc_sessions.md R254). -/
def evSubchFrame (id : Fin 64) (fr : List Byte) : Event := ⟨0x0B, subField id, bytePayload fr⟩
/-- `EV_RS_ERRORS(id, corrected, failed)` (R99, 46_rs_superframe.md R303). -/
def evRsErrors (id : Fin 64) (corrected failed : Nat) : Event :=
  ⟨0x0C, subField id, [BitVec.ofNat 32 corrected, BitVec.ofNat 32 failed]⟩
/-- `EV_FRAME_ERRORS(id, count)` (R99, R303, 44_msc_sessions.md R256). -/
def evFrameErrors (id : Fin 64) (bad : Bool) : Event := ⟨0x0D, subField id, [BitVec.ofNat 32 (bitNat bad)]⟩
/-- `EV_SUPERFRAME(id, au)` (R99, 46_rs_superframe.md R304). -/
def evSuperframe (id : Fin 64) (au : List Byte) : Event := ⟨0x0E, subField id, bytePayload au⟩
/-- `EV_DECODE_ERROR(id, ERRCODE)` (R99, 44_msc_sessions.md R246). -/
def evDecodeError (id : Fin 64) (err : BitVec 8) : Event := ⟨0x0F, subField id, [err.setWidth 32]⟩
/-- `EV_MSG(level, code)`: bit 0 the level, bits 15:8 the message code (R99, 60_exceptions.md R318). -/
def evMsg (level : Bool) (code : BitVec 8) : Event :=
  ⟨0x10, 0, [(0 : BitVec 16) ++ code ++ BitVec.ofNat 8 (bitNat level)]⟩

/-! ### Operations on the state -/

/-- `raise`: append one event record to `EVT`; processing continues (R17, R98, 20_memory.md R66). -/
def raise (e : Event) (s : State) : State := { s with evt := s.evt ++ [e] }

/-- `raise` of several records in order. -/
def raiseAll (es : List Event) (s : State) : State := { s with evt := s.evt ++ es }

/-- `raise` under a condition. -/
def raiseIf (b : Bool) (e : Event) (s : State) : State := if b then raise e s else s

/-- `RSP.push(op, status, data)` (R96). -/
def respond (op status : BitVec 8) (data : Word) (s : State) : State :=
  { s with rsp := s.rsp ++ [⟨op, status, data⟩] }

/-- A refusal, the core's only synchronous fault: a response with an error status and no other change;
nothing is saved, no control is transferred, so there is no return from it
(60_exceptions.md R310, R311, R321, R322). -/
def refuse (op status : BitVec 8) (data : Word) (s : State) : State := respond op status data s

/-- The refusal of an illegal word (30_encoding.md R94, 40_commands.md R125). -/
def refuseIllegal (w : Word) (s : State) : State := refuse (opField w) stIllegalOp w s

/-- The refusal of a malformed word (30_encoding.md R94, 40_commands.md R125). -/
def refuseMalformed (w : Word) (s : State) : State := refuse (opField w) stOperand w s

/-- `x[i]`: read parameter register `P[i]` (R17, 10_state.md R21). -/
def readP (s : State) (i : Fin 8) : Word := s.p[i]

/-- `x[i] <- v` (R17, 10_state.md R21). -/
def writeP (i : Fin 8) (v : Word) (s : State) : State := { s with p := s.p.set i v }

/-- `SESS[id]`; none when its `OPEN` is 0 (10_state.md R39). -/
def slot (s : State) (id : Fin 64) : Option Session := s.sess[id]

/-- Write `SESS[id]`. -/
def writeSlot (id : Fin 64) (v : Option Session) (s : State) : State := { s with sess := s.sess.set id v }

/-- The open slots in increasing id. -/
def openIds (s : State) : List (Fin 64) := (List.finRange 64).filter fun id => (slot s id).isSome

/-- The lowest open slot other than `id` whose range meets that of `d` (40_commands.md R118, R120). -/
def overlapping (s : State) (id : Fin 64) (d : Descriptor) : Option (Fin 64) :=
  (List.finRange 64).find? fun o =>
    o != id && match slot s o with
      | some e => rangesMeet d e.desc
      | none => false

/-! ### What consuming a sample does -/

/-- `sense(e)`: the short window (41_sync.md R141), then the level integrator (R142). -/
def sense (c : Cfg) (e : Nat) (d : Detector) : Detector :=
  { d with
    wsum := d.wsum + e - d.win.getD d.wpos 0
    win := d.win.set d.wpos e
    wpos := (d.wpos + 1) % c.wNull
    slevel := BitVec.ofNat 48 (d.slevel.toNat - d.slevel.toNat / 2 ^ c.lvlShift + e)
    lvlAge := min (d.lvlAge + 1) c.nWarm }

/-- `sense` for every sample of a sequence, oldest first. -/
def senseAll (c : Cfg) (raw : List Word) (d : Detector) : Detector :=
  raw.foldl (fun d w => sense c (energy w) d) d

/-- `DPHI(COARSE, FINE)`, the phase increment per sample (42_demod.md R184). -/
def dphi (c : Cfg) (f : Corrector) : Word :=
  BitVec.ofInt 32 ((f.coarse.toInt * 65536 + f.fine.toInt) * ((2 ^ (16 - c.log2Tu) : Nat) : Int))

/-- The samples rotated by the running phase, each by the value before its increment (R151, R184). -/
def rotateAll (c : Cfg) (step : Word) : Word → List Word → List CInt
  | _, [] => []
  | ph, w :: ws => rot c (sample w) ph :: rotateAll c step (ph + step) ws

/-- The phase after `n` samples: `PHASE <- (PHASE + dphi) mod 2^32` per sample (R151). -/
def phaseAfter (step : Word) : Nat → Word → Word
  | 0, ph => ph
  | n + 1, ph => phaseAfter step n (ph + step)

/-- The sample words `consume(n)` returns: the `n` oldest of `RB` (R151). -/
def consumedRaw (n : Nat) (s : State) : List Word := s.rb.take n

/-- The rotated samples `consume(n)` returns (R151). -/
def consumedRot (n : Nat) (s : State) : List CInt :=
  rotateAll s.cfg (dphi s.cfg s.freq) s.freq.phase (consumedRaw n s)

/-- The state after `consume(n)`; `COARSE` and `FINE` are those at the start of the step (R151). -/
def consume (n : Nat) (s : State) : State :=
  { s with
    rb := s.rb.drop n
    det := senseAll s.cfg (consumedRaw n s) s.det
    freq := { s.freq with phase := phaseAfter (dphi s.cfg s.freq) (consumedRaw n s).length s.freq.phase } }

end Sys2Proof.Machine
end

