-- ==== Sys2Proof/Machine/Flags.lean ====
section
/-! DEFINITION. The status flags (10_state.md R23 to R26) and the words that read them: the control and
status registers (R27 to R38) and the session status word (30_encoding.md R102). The core has no
arithmetic condition codes (R26). -/

namespace Sys2Proof.Machine

/-- `SYNC_STATE <- v`; every change raises `EV_SYNC_STATE(v)` (R24, 41_sync.md R178). -/
def setSync (v : SyncState) (s : State) : State :=
  raiseIf (decide (s.sync ≠ v)) (evSyncState v) { s with sync := v }

/-- `PRESENCE <- b`; every change raises `EV_PRESENCE(b)` (R25, 41_sync.md R179). -/
def setPresence (b : Bool) (s : State) : State :=
  raiseIf (s.flags.presence != b) (evPresence b) { s with flags := { s.flags with presence := b } }

/-- `NULL_PHASE` as its bit (R45). -/
def NullPhase.bit : NullPhase → Bool
  | .seekDip => false
  | .inDip => true

/-- `CTRL` as it reads: its four bits, bits 31:4 zero (R29). -/
def ctrlWord (c : Ctrl) : Word :=
  BitVec.ofNat 32 (bitNat c.enIr + 2 * bitNat c.enConst + 4 * bitNat c.enNullvec + 8 * bitNat c.enTii)

/-- `CTRL` as a write stores it: `value[3:0]`, the rest ignored (R29). -/
def ctrlOf (v : Word) : Ctrl := ⟨v.getLsbD 0, v.getLsbD 1, v.getLsbD 2, v.getLsbD 3⟩

/-- `STATUS` (R30). -/
def statusWord (s : State) : Word :=
  BitVec.ofNat 32 (s.sync.code.toNat + 4 * bitNat s.flags.presence + 8 * bitNat s.flags.run +
    16 * bitNat s.flags.scan + 32 * bitNat s.flags.srcFail + 64 * bitNat s.det.nullPhase.bit +
    256 * s.sym.symIdx.toNat)

/-- `ID`, the bytes "WDC1" (R28). -/
def idWord : Word := 0x57444331

/-- `MemRead(a, 4)`: the implemented CSR with index `a`; none above 0x0F (R27 to R38). -/
def readCsr (s : State) (a : BitVec 8) : Option Word :=
  match a.toNat with
  | 0x00 => some idWord
  | 0x01 => some (ctrlWord s.ctrl)
  | 0x02 => some (statusWord s)
  | 0x03 => some s.freq.coarse
  | 0x04 => some s.freq.fine
  | 0x05 => some s.cnt.missed
  | 0x06 => some s.cnt.frameCnt
  | 0x07 => some s.cnt.badFrames
  | 0x08 => some s.cnt.ficOk
  | 0x09 => some s.cnt.ficFail
  | 0x0A => some (s.det.slevel.extractLsb' 0 32)
  | 0x0B => some ((s.det.slevel.extractLsb' 32 16).setWidth 32)
  | 0x0C => some s.cnt.cifCnt
  | 0x0D => some (BitVec.ofNat 32 (openIds s).length)
  | 0x0E => some (BitVec.ofNat 32 s.cfg.mode)
  | 0x0F => some s.cnt.prsFails
  | _ => none

/-- `TDI_READY`: 1 when `TDI_EN = 0` or `TDI_CNT = 16` (30_encoding.md R102). -/
def tdiReady (v : Session) : Bool := !v.desc.tdiEn || v.tdiCnt == 16

/-- The data word of an `SSTAT` response; 0 for a closed slot (R102). -/
def sstatWord : Option Session → Word
  | none => 0
  | some v =>
    BitVec.ofNat 32 (1 + 2 * v.desc.type.toNat + 8 * bitNat v.mismatch + 16 * bitNat (tdiReady v) +
      32 * v.sfFill.toNat + 256 * v.errcode.toNat)

end Sys2Proof.Machine
end

