-- ==== Sys2Proof/Machine/Sessions.lean ====
section
/-! DEFINITION. The session commands (40_commands.md R118 to R120, R123, R124). -/

namespace Sys2Proof.Machine

/-- The slot `SOPEN` opens: `MISMATCH` and `ERRCODE` from the check, buffers empty (R118, 10_state.md R42). -/
def openSession (c : Cfg) (d : Descriptor) : Session where
  desc := d
  mismatch := checkDescriptor c d != 0
  errcode := checkDescriptor c d
  tdiCnt := 0
  tdiH := []
  sfFill := 0
  sfBuf := []

/-- `SOPEN` of a legal slot: already open, then range, then overlap, then the check (R118, R320). -/
def openSlot (id : Fin 64) (s : State) : State :=
  match slot s id with
  | some _ => respond 0x08 stOkReused 0 s
  | none =>
    let d := descriptor s.p
    if rangeBad d then refuse 0x08 stRange 0 s
    else
      match overlapping s id d with
      | some o => refuse 0x08 stOverlap (BitVec.ofNat 32 o.val) s
      | none =>
        respond 0x08 stOk ((checkDescriptor s.cfg d).setWidth 32)
          (writeSlot id (some (openSession s.cfg d)) s)

/-- `SOPEN #id`; an id above 63 is malformed (R118, R125; log 10). -/
def execSopen (a : BitVec 8) (s : State) : Host.Outcome State Fault Refusal :=
  match slotOperand a with
  | none => .next (refuseMalformed (encode (.sopen a)) s)
  | some id => .next (openSlot id s)

/-- `SCLOSE #id`; an id above 63 is malformed (R123, R125; log 10). -/
def execSclose (a : BitVec 8) (s : State) : Host.Outcome State Fault Refusal :=
  match slotOperand a with
  | none => .next (refuseMalformed (encode (.sclose a)) s)
  | some id =>
    match slot s id with
    | none => .next (refuse 0x09 stNotOpen 0 s)
    | some _ => .next (respond 0x09 stOk 0 (writeSlot id none s))

/-- `SSTAT #id`; an id above 63 is malformed (R124, R125; log 10). -/
def execSstat (a : BitVec 8) (s : State) : Host.Outcome State Fault Refusal :=
  match slotOperand a with
  | none => .next (refuseMalformed (encode (.sstat a)) s)
  | some id => .next (respond 0x0A stOk (sstatWord (slot s id)) s)

end Sys2Proof.Machine
end

