-- ==== Sys2Proof/Machine/System.lean ====
section
/-! DEFINITION. The system commands `NOP`, `RESTART`, `STOP` (40_commands.md R111 to R113). -/

namespace Sys2Proof.Machine

/-- `NOP` (R111). -/
def execNop (s : State) : Host.Outcome State Fault Refusal := .next (respond 0x00 stOk 0 s)

/-- The assignments of `RESTART` before its events (R112, 10_state.md R53). -/
def restartClear (doScan : Bool) (s : State) : State :=
  { s with
    sess := Vector.replicate 64 none
    rb := []
    sync := .unsynchronized
    flags := { run := true, scan := doScan, srcFail := false, presence := false }
    freq := ⟨0, 0, 0, 0, 0⟩
    det := Detector.zero s.cfg
    cnt := Counters.zero
    sym := SymbolState.initial }

/-- `RESTART #doScan` (R112). -/
def execRestart (doScan : Bool) (s : State) : Host.Outcome State Fault Refusal :=
  .next (respond 0x01 stOk 0
    (raiseIf s.flags.presence (evPresence false)
      (raiseIf (decide (s.sync ≠ .unsynchronized)) (evSyncState .unsynchronized) (restartClear doScan s))))

/-- `STOP` (R113). -/
def execStop (s : State) : Host.Outcome State Fault Refusal :=
  .next (respond 0x02 stOk 0 { s with flags := { s.flags with run := false } })

end Sys2Proof.Machine
end

