-- ==== Sys2Proof/Machine/Transport.lean ====
section
/-! DEFINITION. The register transport commands (40_commands.md R115 to R117, R121, R122). -/

namespace Sys2Proof.Machine

/-- `LDPL Pi, #imm16`: bits 31:16 become 0; an index above 7 is malformed (R115, R125; log 10). -/
def execLdpl (a : BitVec 8) (imm16 : BitVec 16) (s : State) : Host.Outcome State Fault Refusal :=
  match regOperand a with
  | none => .next (refuseMalformed (encode (.ldpl a imm16)) s)
  | some i =>
    let v : Word := imm16.setWidth 32
    .next (respond 0x03 stOk v (writeP i v s))

/-- `LDPH Pi, #imm16`: bits 15:0 are kept; an index above 7 is malformed (R116, R125; log 10). -/
def execLdph (a : BitVec 8) (imm16 : BitVec 16) (s : State) : Host.Outcome State Fault Refusal :=
  match regOperand a with
  | none => .next (refuseMalformed (encode (.ldph a imm16)) s)
  | some i =>
    let v : Word := imm16 ++ (readP s i).extractLsb' 0 16
    .next (respond 0x04 stOk v (writeP i v s))

/-- `RDP Pi`; an index above 7 is malformed (R117, R125; log 10). -/
def execRdp (a : BitVec 8) (s : State) : Host.Outcome State Fault Refusal :=
  match regOperand a with
  | none => .next (refuseMalformed (encode (.rdp a)) s)
  | some i => .next (respond 0x05 stOk (readP s i) s)

/-- `WRCSR csr`: the value written is `P[0]`; `ERR_NOCSR` before `ERR_RO` (R121, 60_exceptions.md R320). -/
def execWrcsr (a : BitVec 8) (s : State) : Host.Outcome State Fault Refusal :=
  if 0x0F < a.toNat then .next (refuse 0x06 stNoCsr 0 s)
  else if a.toNat ≠ 0x01 then .next (refuse 0x06 stRo 0 s)
  else
    let c := ctrlOf (readP s 0)
    .next (respond 0x06 stOk (ctrlWord c) { s with ctrl := c })

/-- `RDCSR csr` (R122). -/
def execRdcsr (a : BitVec 8) (s : State) : Host.Outcome State Fault Refusal :=
  match readCsr s a with
  | none => .next (refuse 0x07 stNoCsr 0 s)
  | some v => .next (respond 0x07 stOk v s)

end Sys2Proof.Machine
end

