-- ==== Sys2Proof/Machine/Dispatch.lean ====
section
/-! DEFINITION. One arm per command (40_commands.md R111 to R124). -/

namespace Sys2Proof.Machine

def exec (i : Instr) (s : State) : Host.Outcome State Fault Refusal :=
  match i with
  | .nop => Sys2Proof.Machine.execNop s
  | .restart doScan => Sys2Proof.Machine.execRestart doScan s
  | .stop => Sys2Proof.Machine.execStop s
  | .ldpl a imm16 => Sys2Proof.Machine.execLdpl a imm16 s
  | .ldph a imm16 => Sys2Proof.Machine.execLdph a imm16 s
  | .rdp a => Sys2Proof.Machine.execRdp a s
  | .wrcsr a => Sys2Proof.Machine.execWrcsr a s
  | .rdcsr a => Sys2Proof.Machine.execRdcsr a s
  | .sopen a => Sys2Proof.Machine.execSopen a s
  | .sclose a => Sys2Proof.Machine.execSclose a s
  | .sstat a => Sys2Proof.Machine.execSstat a s

end Sys2Proof.Machine
end

