-- ==== Sys2Proof/Machine/Commands.lean ====
section
/-! DEFINITION. The step of the `CMD` agent (40_commands.md R110, R125). -/

namespace Sys2Proof.Machine

/-- The execution of the word `w`, already removed from `CMDQ` (R110): a command runs; an illegal or
malformed word is refused with a response (R125). -/
def runWord (w : Word) (s : State) : Host.Outcome State Fault Refusal :=
  match decode w with
  | .command i => exec i s
  | .illegal => .next (refuseIllegal w s)
  | .malformed => .next (refuseMalformed w s)

/-- `CMD`'s step: serve the head word of `CMDQ`; it holds while `CMDQ` is empty (R110). -/
def cmdStep (s : State) : Host.Outcome State Fault Refusal :=
  match s.cmdq with
  | [] => .next s
  | w :: rest => runWord w { s with cmdq := rest }

end Sys2Proof.Machine
end

