-- ==== Sys2Proof/Machine/Checks.lean ====
section
/-! DEFINITION. The energy-dispersal descrambler and the syndrome checkers CRC-16 and Firecode
(45_edisp_crc_firecode.md R270 to R281). -/

namespace Sys2Proof.Machine

/-- The shift register `reg[1..9]` with `reg[k]` in bit `k - 1`, all stages 1 (R271). -/
def prbsStart : BitVec 9 := 0x1FF

/-- The bit the register yields: `reg[9] XOR reg[5]` (R271). -/
def prbsBit (reg : BitVec 9) : Bool := reg.getLsbD 8 ^^ reg.getLsbD 4

/-- `reg[k] <- reg[k-1]`, `reg[1] <- b` (R271). -/
def prbsNext (reg : BitVec 9) : BitVec 9 := reg.extractLsb' 0 8 ++ BitVec.ofBool (prbsBit reg)

/-- `n` bits of the sequence from the register `reg` on (R271). -/
def prbsFrom (reg : BitVec 9) : Nat → List Bool
  | 0 => []
  | n + 1 => prbsBit reg :: prbsFrom (prbsNext reg) n

/-- `descramble(u)`: `d[i] = u[i] XOR PRBS[i]`, restarting at `PRBS[0]` (R272). -/
def descramble (u : List Bool) : List Bool := List.zipWith xor u (prbsFrom prbsStart u.length)

/-- `n` shifts of a 16-bit check register with the polynomial word `poly` (R275). -/
def crcShift (poly : BitVec 16) : Nat → BitVec 16 → BitVec 16
  | 0, r => r
  | n + 1, r => crcShift poly n (if r.getLsbD 15 then (r <<< 1) ^^^ poly else r <<< 1)

/-- One byte: XOR into the high half, then eight shifts (R275). -/
def crcByte (poly r : BitVec 16) (b : Byte) : BitVec 16 := crcShift poly 8 (r ^^^ (b ++ (0 : BitVec 8)))

/-- `crc16(b)`: preset all ones, polynomial word 0x1021, result complemented (R275). -/
def crc16 (bs : List Byte) : BitVec 16 := bs.foldl (crcByte 0x1021) 0xFFFF ^^^ 0xFFFF

/-- `crc16_ok(fib)`: the last two of 32 bytes are the CRC word, high byte first (R230, R276). -/
def crc16Ok (fib : List Byte) : Bool := crc16 (fib.take 30) == fib.getD 30 0 ++ fib.getD 31 0

/-- `fire16(b)`: preset zero, polynomial word 0x782F, no complement (R278). -/
def fire16 (bs : List Byte) : BitVec 16 := bs.foldl (crcByte 0x782F) 0

/-- `firecode_ok(f)`: false below 11 bytes; else the first two bytes are the check word over the next
nine (R279). -/
def firecodeOk (f : List Byte) : Bool :=
  decide (11 ≤ f.length) && fire16 (slice f 2 11) == f.getD 0 0 ++ f.getD 1 0

end Sys2Proof.Machine
end

