-- ==== Sys2Proof/Machine/Viterbi.lean ====
section
/-! DEFINITION. The convolutional code, the de-puncturer and the Viterbi decoder
(43_viterbi_fic.md R210 to R222). -/

namespace Sys2Proof.Machine

/-! ### The encoder, which only says what the decoder inverts (R211) -/

/-- `x[j][i] = XOR over d in G[j] of a[i - d]`, with `a` zero outside the word (R211). -/
def encodedBit (a : List Bool) (g : List Nat) (i : Nat) : Bool :=
  g.foldl (fun x d => x ^^ (decide (d ≤ i) && a.getD (i - d) false)) false

/-- The mother codeword `u[4*i + j] = x[j][i]`, tail included (R211). -/
def convEncode (c : Cfg) (a : List Bool) : List Bool :=
  (List.range (a.length + c.kconv - 1)).flatMap fun i => c.polys.map fun g => encodedBit a g i

/-! ### Puncturing (R213 to R215) -/

/-- The vector `PI[i]`, `i` in 1..24 (R213). -/
def piRow (c : Cfg) (i : Nat) : List Bool := c.piTable.getD (i - 1) []

/-- The keep-mask of a codeword: each segment's vector `4 * L_j` times, then `PI_TAIL` (R215). -/
def keepMask (c : Cfg) (segs : List Segment) : List Bool :=
  (segs.flatMap fun g => (List.replicate (4 * g.len) (piRow c g.pi)).flatten) ++ c.piTail

/-- What the transmitter sends: the mother bits whose mask bit is 1, in order (R215). -/
def puncture {α : Type} : List Bool → List α → List α
  | true :: ms, x :: xs => x :: puncture ms xs
  | false :: ms, _ :: xs => puncture ms xs
  | _, _ => []

/-- The de-puncturer on a mask: a deleted position becomes 0, no information (R215). A position for which
`p` has run out is 0 too; the callers guarantee that it has not (R215; log 11). -/
def depunctureMask : List Bool → List Soft → List Soft
  | [], _ => []
  | true :: ms, x :: xs => x :: depunctureMask ms xs
  | true :: ms, [] => 0 :: depunctureMask ms []
  | false :: ms, p => 0 :: depunctureMask ms p

/-- `depuncture(p, schedule)` (R215). -/
def depuncture (c : Cfg) (p : List Soft) (segs : List Segment) : List Soft := depunctureMask (keepMask c segs) p

/-! ### The trellis (R216, R217) -/

/-- `next(s, a) = ((s << 1) | a) mod NST` (R216). -/
def trellisNext (c : Cfg) (s : Nat) (a : Bool) : Nat := (2 * s + if a then 1 else 0) % c.nst

/-- `out(s, a)[j] = XOR over d in G[j] of (a if d = 0 else bit d-1 of s)` (R216). -/
def branchOut (c : Cfg) (s : Nat) (a : Bool) : List Bool :=
  c.polys.map fun g => g.foldl (fun x d => x ^^ (if d = 0 then a else s.testBit (d - 1))) false

/-- `bm(t, s, a)` on the four mother soft values of step `t` (R217). -/
def branchMetric (c : Cfg) (m4 : List Soft) (s : Nat) (a : Bool) : Int :=
  (List.zipWith (fun (b : Bool) (x : Soft) => if b then x else -x) (branchOut c s a) m4).sum

/-! ### Add, compare, select (R218) -/

/-- Path metrics by state; `none` is *absent* (R218). -/
abbrev PathMetrics := List (Option Int)

/-- `PM[0]`: 0 for state 0, absent elsewhere (R218). -/
def pathStart (c : Cfg) : PathMetrics := some 0 :: List.replicate (c.nst - 1) none

/-- A predecessor's candidate metric, absent if the predecessor is (R218). -/
def candidate (c : Cfg) (m4 : List Soft) (pm : PathMetrics) (pred : Nat) (a : Bool) : Option Int :=
  (pm.getD pred none).map (· + branchMetric c m4 pred a)

/-- The selection between the two candidates; a tie selects `p0` (R218). -/
def select : Option Int → Option Int → Option Int × Bool
  | none, none => (none, false)
  | some c0, none => (some c0, false)
  | none, some c1 => (some c1, true)
  | some c0, some c1 => if c0 < c1 then (some c1, true) else (some c0, false)

/-- The new metric and decision of state `u`; in a tail step only a zero enters (R218). -/
def acsState (c : Cfg) (tail : Bool) (m4 : List Soft) (pm : PathMetrics) (u : Nat) : Option Int × Bool :=
  let a := u % 2 == 1
  if tail && a then (none, false)
  else select (candidate c m4 pm (u / 2) a) (candidate c m4 pm (u / 2 + c.nst / 2) a)

/-- One trellis step for every state (R218). -/
def acsStep (c : Cfg) (tail : Bool) (m4 : List Soft) (pm : PathMetrics) : List (Option Int × Bool) :=
  (List.range c.nst).map (acsState c tail m4 pm)

/-- `n` trellis steps from step `t` on: the final metrics and the decisions, newest first (R218). -/
def viterbiRun (c : Cfg) (info : Nat) :
    Nat → Nat → List Soft → PathMetrics → List (List Bool) → PathMetrics × List (List Bool)
  | 0, _, _, pm, decs => (pm, decs)
  | n + 1, t, m, pm, decs =>
    let r := acsStep c (decide (info ≤ t)) (m.take 4) pm
    viterbiRun c info n (t + 1) (m.drop 4) (r.map (·.1)) (r.map (·.2) :: decs)

/-- The traceback from state `s` through the decisions, newest first (R219). -/
def traceback (c : Cfg) : List (List Bool) → Nat → List Bool → List Bool
  | [], _, acc => acc
  | d :: ds, s, acc =>
    traceback c ds (s / 2 + if d.getD s false then c.nst / 2 else 0) ((s % 2 == 1) :: acc)

/-- The final path metric of state 0 (R219). -/
def viterbiMetric (c : Cfg) (m : List Soft) (info : Nat) : Option Int :=
  (viterbiRun c info (info + c.kconv - 1) 0 m (pathStart c) []).1.getD 0 none

/-- `viterbi(m, I)` (R219). -/
def viterbi (c : Cfg) (m : List Soft) (info : Nat) : List Bool :=
  (traceback c (viterbiRun c info (info + c.kconv - 1) 0 m (pathStart c) []).2 0 []).take info

end Sys2Proof.Machine
end

