-- ==== Sys2Proof/Machine/Fic.lean ====
section
/-! DEFINITION. The FIC decoding chain (43_viterbi_fic.md R228 to R233). -/

namespace Sys2Proof.Machine

/-- The decoded and descrambled bits of the FIC codeword with index `b` (R229). -/
def ficBlockBits (c : Cfg) (f : List Soft) (b : Nat) : List Bool :=
  descramble (viterbi c (depuncture c (slice f (b * c.ficPunct) ((b + 1) * c.ficPunct)) c.ficSegs) c.ficInfo)

/-- The Fast Information Block with index `i` of decoded bits: 32 bytes (R229, R230). -/
def fibOf (d : List Bool) (i : Nat) : List Byte := packBytes (slice d (i * fibBits) ((i + 1) * fibBits))

/-- The counters after a block's verdict (R231). -/
def countFib (ok : Bool) (n : Counters) : Counters :=
  if ok then { n with ficOk := n.ficOk + 1 } else { n with ficFail := n.ficFail + 1 }

/-- `fib_report(idx, fib)` (R231, R232). -/
def fibReport (idx : Nat) (fib : List Byte) (s : State) : State :=
  let ok := crc16Ok fib
  raiseIf ok (evFib fib) (raise (evFicCrc ok idx) { s with cnt := countFib ok s.cnt })

/-- The reports of one codeword's blocks, in order (R229). -/
def ficBlock (f : List Soft) (b : Nat) (s : State) : State :=
  let d := ficBlockBits s.cfg f b
  (List.range s.cfg.fibsPerBlock).foldl (fun t i => fibReport (b * t.cfg.fibsPerBlock + i) (fibOf d i) t) s

/-- `fic_decode(F)` (R229). -/
def ficDecode (f : List Soft) (s : State) : State :=
  (List.range s.cfg.ficBlocks).foldl (fun t b => ficBlock f b t) s

end Sys2Proof.Machine
end

