-- ==== Sys2Proof/Machine/ReedSolomon.lean ====
section
/-! DEFINITION. The Reed-Solomon decoder RS(120, 110) (46_rs_superframe.md R285 to R290). The decoder is
given by a contract (R289); the algorithm here meets it by a locator search and a final syndrome
re-check (log 15). -/

namespace Sys2Proof.Machine

/-! ### The field (R285) -/

/-- `xtime(a)`: `a << 1`, reduced by `0x11D` when bit 7 was set (R285). -/
def xtime (a : Byte) : Byte := if a.getLsbD 7 then (a <<< 1) ^^^ 0x1D else a <<< 1

/-- The sum of `xtime^i(a)` over the bits `i < n` of `b`. -/
def gmulBits : Nat → Byte → Byte → Byte
  | 0, _, _ => 0
  | n + 1, a, b => (if b.getLsbD 0 then a else 0) ^^^ gmulBits n (xtime a) (b >>> 1)

/-- `gmul(a, b)`: multiplication of the field (R285), by shift and add (log 15). -/
def gmul (a b : Byte) : Byte := gmulBits 8 a b

/-- `alpha^n` (R285). -/
def alphaPow : Nat → Byte
  | 0 => 1
  | n + 1 => xtime (alphaPow n)

/-- `a^n` by repeated multiplication. -/
def gpow (a : Byte) : Nat → Byte
  | 0 => 1
  | n + 1 => gmul a (gpow a n)

/-- The inverse of a non-zero byte: `a^254` (R285: the 255 non-zero bytes are the powers of `alpha`). -/
def ginv (a : Byte) : Byte := gpow a 254

/-- The sum of the products of two sequences. -/
def gdot (xs ys : List Byte) : Byte := (List.zipWith gmul xs ys).foldl (· ^^^ ·) 0

/-! ### The code (R286 to R288) -/

/-- The value at `x` of the polynomial whose highest coefficient comes first. -/
def evalHigh (r : List Byte) (x : Byte) : Byte := r.foldl (fun acc b => gmul acc x ^^^ b) 0

/-- The value at `x` of the polynomial whose lowest coefficient comes first. -/
def evalLow (p : List Byte) (x : Byte) : Byte := p.foldr (fun b acc => b ^^^ gmul acc x) 0

/-- `S[m] = r(alpha^m)` (R288). -/
def syndrome (r : List Byte) (m : Nat) : Byte := evalHigh r (alphaPow m)

/-- The ten syndromes (R288). -/
def syndromes (r : List Byte) : List Byte := (List.range 10).map (syndrome r)

/-- A code word: 120 bytes with all ten syndromes 0 (R286). -/
def isCodeWord (r : List Byte) : Bool := r.length == 120 && (syndromes r).all (· == 0)

/-- The number of positions in which two words differ (R289). -/
def distance (r c : List Byte) : Nat := (List.zipWith (fun x y => decide (x ≠ y)) r c).count true

/-- The coefficients, lowest first, of `p(x) * (x + a)`. -/
def mulLinear (p : List Byte) (a : Byte) : List Byte :=
  List.zipWith (· ^^^ ·) (p.map (gmul a) ++ [0]) (0 :: p)

/-- `g(x) = product over i in 0..10 of (x + alpha^i)`, lowest coefficient first (R286). -/
def generator : List Byte := (List.range 10).foldl (fun g i => mulLinear g (alphaPow i)) [1]

/-- One step of the division by `g(x)`: `rem`, highest first, is the running remainder and `d` the next
data byte (R287). -/
def rsEncodeStep (rem : List Byte) (d : Byte) : List Byte :=
  let q := d ^^^ rem.getD 0 0
  List.zipWith (fun r g => r ^^^ gmul q g) (rem.drop 1 ++ [0]) (generator.reverse.drop 1)

/-- The parity bytes of 110 data bytes: the remainder of `d(x) * x^10` divided by `g(x)` (R287). -/
def rsParity (data : List Byte) : List Byte := data.foldl rsEncodeStep (List.replicate 10 0)

/-- The encoder, defined only to say what the decoder inverts (R287). -/
def rsEncode (data : List Byte) : List Byte := data ++ rsParity data

/-! ### The decoder (R289) -/

/-- The first row whose leading entry is not 0, and the other rows in order. -/
def splitPivot : List (List Byte) → Option (List Byte × List (List Byte))
  | [] => none
  | row :: rows =>
    if row.getD 0 0 ≠ 0 then some (row, rows)
    else (splitPivot rows).map fun r => (r.1, row :: r.2)

/-- The rest of a row after its leading entry is cleared with the pivot row. -/
def eliminate (pivot row : List Byte) : List Byte :=
  let f := gmul (row.getD 0 0) (ginv (pivot.getD 0 0))
  List.zipWith (fun r p => r ^^^ gmul f p) (row.drop 1) (pivot.drop 1)

/-- A non-zero solution of a homogeneous linear system with fewer rows than its `n` unknowns. -/
def kernelVector : Nat → List (List Byte) → List Byte
  | 0, _ => []
  | n + 1, rows =>
    match splitPivot rows with
    | none => 1 :: List.replicate n 0
    | some (pivot, rest) =>
      let x := kernelVector n (rest.map (eliminate pivot))
      gmul (ginv (pivot.getD 0 0)) (gdot (pivot.drop 1) x) :: x

/-- A non-zero polynomial of degree at most 5, lowest coefficient first, that vanishes at the locator of
every error when there are at most five: a solution of `sum over j of Λ[j] * S[i + j] = 0`, `i` in 0..5. -/
def locator (syn : List Byte) : List Byte :=
  kernelVector 6 ((List.range 5).map fun i => slice syn i (i + 6))

/-- The locator of index `i` of a word: `alpha^(119 - i)` (R286, R288). -/
def positionLocator (i : Nat) : Byte := alphaPow (119 - i)

/-- The indices among the 120 positions whose locators are roots of a polynomial (R289). -/
def errorPositions (lam : List Byte) : List Nat :=
  (List.range 120).filter fun i => evalLow lam (positionLocator i) == 0

/-- The error value at the locator `x`, the others of the word's error locators being `others`: the
polynomial that is 1 at `x` and 0 at the others, applied to the syndromes. -/
def errorValue (syn : List Byte) (others : List Byte) (x : Byte) : Byte :=
  let p := others.foldl mulLinear [1]
  gmul (gdot p syn) (ginv (evalLow p x))

/-- The received word with the error value at every found position added. -/
def correctAt (syn : List Byte) (positions : List Nat) (r : List Byte) : List Byte :=
  r.mapIdx fun i b =>
    if positions.contains i then
      b ^^^ errorValue syn ((positions.filter (· != i)).map positionLocator) (positionLocator i)
    else b

/-- `rs_decode(r)`: the data of the code word within five byte positions of `r`, the number of
corrected bytes and true; if there is none, the received data, 0 and false (R289). -/
def rsDecode (r : List Byte) : List Byte × Nat × Bool :=
  let syn := syndromes r
  let c := correctAt syn (errorPositions (locator syn)) r
  if isCodeWord c && decide (distance r c ≤ 5) then (c.take 110, distance r c, true)
  else (r.take 110, 0, false)

end Sys2Proof.Machine
end

