-- ==== Sys2Proof/Machine/Msc.lean ====
section
/-! DEFINITION. CIFs, the time de-interleaver, the Decoding Sessions and the DAB+ superframe
(44_msc_sessions.md R240 to R262, 46_rs_superframe.md R295 to R307). -/

namespace Sys2Proof.Machine

/-! ### The time de-interleaver (R244) -/

/-- `M[j]`, the 4-bit reversal of `j` (R244). -/
def tdiDelay (j : Nat) : Nat := [0, 8, 4, 12, 2, 10, 6, 14, 1, 9, 5, 13, 3, 11, 7, 15].getD j 0

/-- `w[i] = TDI_H[15 - M[i mod 16]][i]` for `i` in `0..n` (R244). -/
def tdiOut (n : Nat) (h : List (List Soft)) : List Soft :=
  (List.range n).map fun i => (h.getD (15 - tdiDelay (i % 16)) []).getD i 0

/-- `TDI_CNT <- min(TDI_CNT + 1, 16)` (R244). -/
def nextTdiCnt (n : BitVec 5) : BitVec 5 := BitVec.ofNat 5 (min (n.toNat + 1) 16)

/-- The session after `tdi_push(S, v)` (R244). -/
def tdiPush (v : List Soft) (x : Session) : Session :=
  { x with tdiH := (v :: x.tdiH).take 16, tdiCnt := nextTdiCnt x.tdiCnt }

/-- The vector `tdi_push` returns, from the session after it; none while still filling (R244). -/
def tdiResult (x : Session) : Option (List Soft) :=
  if x.tdiCnt.toNat < 16 then none else some (tdiOut x.desc.nsoft x.tdiH)

/-! ### The superframe (46_rs_superframe.md R295 to R305) -/

/-- Code word `j`: `r_j[k] = sf[j + k * RS_S]` for `k` in `0..120` (R295). -/
def rsWord (rsS : Nat) (sf : List Byte) (j : Nat) : List Byte :=
  (List.range 120).map fun k => sf.getD (j + k * rsS) 0

/-- The decoded code words of a superframe (R297). -/
def rsResults (rsS : Nat) (sf : List Byte) : List (List Byte × Nat × Bool) :=
  (List.range rsS).map fun j => rsDecode (rsWord rsS sf j)

/-- `corrected`, summed over the code words that decoded (R297, R303). -/
def rsCorrected (rs : List (List Byte × Nat × Bool)) : Nat :=
  (rs.map fun r => if r.2.2 then r.2.1 else 0).sum

/-- `failed`, the number of code words that did not decode (R297, R303). -/
def rsFailed (rs : List (List Byte × Nat × Bool)) : Nat := (rs.map (·.2.2)).count false

/-- `au[j + k * RS_S] = data_j[k]` for `k` in `0..110` (R295). -/
def audioFrame (rsS : Nat) (rs : List (List Byte × Nat × Bool)) : List Byte :=
  (List.range (110 * rsS)).map fun i => (rs.getD (i % rsS) ([], 0, false)).1.getD (i / rsS) 0

/-- `sf_attempt(id)` (R297, R300, R303 to R305). -/
def sfAttempt (id : Fin 64) (x : Session) : Session × List Event :=
  let rsS := x.desc.rsS
  let rs := rsResults rsS x.sfBuf.flatten
  let au := audioFrame rsS rs
  let fc := firecodeOk (au.take 11)
  let counts := [evRsErrors id (rsCorrected rs) (rsFailed rs), evFrameErrors id (!fc)]
  if fc then ({ x with sfBuf := [], sfFill := 0 }, counts ++ [evSuperframe id au])
  else ({ x with sfBuf := x.sfBuf.drop 1, sfFill := 4 }, counts)

/-- `sf_push(id, fr)` (R296). -/
def sfPush (id : Fin 64) (fr : List Byte) (x : Session) : Session × List Event :=
  let y := { x with sfBuf := x.sfBuf ++ [fr], sfFill := x.sfFill + 1 }
  if y.sfFill = 5 then sfAttempt id y else (y, [])

/-! ### One session, one CIF (R243 to R258) -/

/-- The decoded bits of the soft-bit vector `w` (R243). -/
def frameBits (c : Cfg) (d : Descriptor) (w : List Soft) : List Bool :=
  let u := viterbi c (depuncture c w d.used) d.ninfo
  if d.edispEn then descramble u else u

/-- The logical frame `fr` of the soft-bit vector `w` (R243). -/
def logicalFrame (c : Cfg) (d : Descriptor) (w : List Soft) : List Byte := packBytes (frameBits c d w)

/-- `raw_frame(id, fr)` (R254). -/
def rawFrame (id : Fin 64) (fr : List Byte) : List Event := [evSubchFrame id fr]

/-- `dab_frame(id, fr)` (R256). -/
def dabFrame (id : Fin 64) (fcEn : Bool) (fr : List Byte) : List Event :=
  [evFrameErrors id (fcEn && !firecodeOk fr), evSubchFrame id fr]

/-- The dispatch of a logical frame by the session type (R243, R254, R256, R258). -/
def deliver (id : Fin 64) (fr : List Byte) (x : Session) : Session × List Event :=
  match x.desc.type.toNat with
  | 0 => (x, rawFrame id fr)
  | 1 => (x, dabFrame id x.desc.fcEn fr)
  | 2 => sfPush id fr x
  | _ => (x, [])

/-- `session_cif(id, v)`: it reads `v`, `Cfg` and the slot, and yields the slot and the events (R243, R242). -/
def sessionCif (c : Cfg) (id : Fin 64) (v : List Soft) (x : Session) : Session × List Event :=
  if x.mismatch then (x, [evDecodeError id x.errcode])
  else if x.desc.tdiEn then
    let y := tdiPush v x
    match tdiResult y with
    | none => (y, [])
    | some w => deliver id (logicalFrame c y.desc w) y
  else deliver id (logicalFrame c x.desc v) x

/-! ### The CIF (R241) -/

/-- Insert an element before the `n`-th of a list, at the end if the list is shorter. -/
def insertAt {α : Type} (x : α) : Nat → List α → List α
  | _, [] => [x]
  | 0, y :: ys => x :: y :: ys
  | n + 1, y :: ys => y :: insertAt x n ys

/-- The order in which the open sessions are served within one CIF: any order at all, drawn from the free
value `Config.servePlace` at the draw `n` (R241, 20_memory.md R79; log 7). -/
def serveOrder (n : Nat) (ids : List (Fin 64)) : List (Fin 64) :=
  ids.foldr (fun id acc => insertAt id (Config.servePlace n id.val) acc) []

/-- The soft bits of a subchannel's Capacity Units (R241). -/
def cuRange (d : Descriptor) (cif : List Soft) : List Soft :=
  slice cif (d.startCu.toNat * cuBits) ((d.startCu.toNat + d.sizeCu.toNat) * cuBits)

/-- The service of one session within a CIF (R241). -/
def serveSession (cif : List Soft) (s : State) (id : Fin 64) : State :=
  match slot s id with
  | none => s
  | some x =>
    let r := sessionCif s.cfg id (cuRange x.desc cif) x
    raiseAll r.2 (writeSlot id (some r.1) s)

/-- `CIF_CNT <- (CIF_CNT + 1) mod 2^32` (R241); the free order is drawn. -/
def cifStart (s : State) : State :=
  { s with cnt := { s.cnt with cifCnt := s.cnt.cifCnt + 1 }, draws := s.draws + 1 }

/-- `cif_process(C)` (R241). -/
def cifProcess (cif : List Soft) (s : State) : State :=
  (serveOrder s.draws (openIds s)).foldl (serveSession cif) (cifStart s)

end Sys2Proof.Machine
end

