-- ==== Sys2Proof/Machine/Sync.lean ====
section
/-! DEFINITION. The null-symbol detector, the phase-reference correlator, the frequency estimator and the
synchronisation steps of `PIPE` (41_sync.md R140 to R179). -/

namespace Sys2Proof.Machine

/-! ### The null detector (R143 to R147) -/

/-- Detection is *armed* (R143). -/
def armed (c : Cfg) (d : Detector) : Bool := decide (c.nWarm ≤ d.lvlAge)

/-- `dip()` (R144). -/
def dip (c : Cfg) (d : Detector) : Bool :=
  armed c d && decide (d.wsum * 2 ^ c.lvlShift * c.dipDen < c.dipNum * d.slevel.toNat * c.wNull)

/-- `end()` (R144). -/
def dipEnd (c : Cfg) (d : Detector) : Bool :=
  decide (c.endNum * d.slevel.toNat * c.wNull < d.wsum * 2 ^ c.lvlShift * c.endDen)

/-- The detector with the search restarted: `NULL_PHASE`, `NS_COUNT`, `DIP_LEN` zero (R147, R171, R175). -/
def searchReset (d : Detector) : Detector := { d with nullPhase := .seekDip, nsCount := 0, dipLen := 0 }

/-- The detector after the sample of a null-search step and its count (R145). -/
def searchSense (c : Cfg) (w : Word) (d : Detector) : Detector :=
  let e := sense c (energy w) d
  { e with nsCount := e.nsCount + 1 }

/-- The step has found the end of a null symbol: `IN_DIP` and `end()` (R145). -/
def nullEnds (c : Cfg) (d : Detector) : Bool := d.nullPhase == .inDip && dipEnd c d

/-- `NULL_PHASE` and `DIP_LEN` when the end was not found (R145, R146). -/
def dipUpdate (c : Cfg) (d : Detector) : Detector :=
  match d.nullPhase with
  | .seekDip => if dip c d then { d with nullPhase := .inDip, dipLen := 0 } else d
  | .inDip =>
    let n := d.dipLen + 1
    if c.dipMax < n.toNat then { d with nullPhase := .seekDip, dipLen := 0 } else { d with dipLen := n }

/-- `timeout()`: the negative verdict is raised even if `PRESENCE` was already 0 (R147). -/
def searchTimeout (s : State) : State :=
  raise (evPresence false)
    { s with det := searchReset s.det, flags := { s.flags with presence := false } }

/-- The null symbol has ended: `SYNC_STATE <- 2`, and `PRESENCE` rises unless `PRS_FAILS` has reached its
limit (R145). -/
def nullFound (s : State) : State :=
  let s2 := setSync .acquiringPhaseReference { s with det := searchReset s.det }
  if s2.cnt.prsFails.toNat < s2.cfg.prsFailMax then setPresence true s2 else s2

/-- The null-search step on the sample word `w`, the rest of `RB` being `rest` (R145). -/
def nullSearch (w : Word) (rest : List Word) (s : State) : State :=
  let s1 := { s with rb := rest, det := searchSense s.cfg w s.det }
  if nullEnds s1.cfg s1.det then nullFound s1
  else
    let s2 := { s1 with det := dipUpdate s1.cfg s1.det }
    if s2.cfg.nullTimeout ≤ s2.det.nsCount.toNat then searchTimeout s2 else s2

/-! ### The correlator (R152 to R156) -/

/-- `PRSQ[k]` (R152); the table holds the carriers in rising order. -/
def prsq (c : Cfg) (k : Int) : BitVec 2 :=
  let h : Int := ((c.carriers / 2 : Nat) : Int)
  c.prsq.getD (if k < 0 then k + h else k + h - 1).toNat 0

/-- `PAIRS`: the carriers `k` for which `k + 1` is a carrier too (R153). -/
def pairSet (c : Cfg) : List Int :=
  ((List.range c.carriers).map fun j : Nat => (j : Int) - ((c.carriers / 2 : Nat) : Int)).filter
    fun k => k != -1 && k != 0

/-- `DQ[k] = (PRSQ[k + 1] - PRSQ[k]) mod 4` (R153). -/
def dq (c : Cfg) (k : Int) : BitVec 2 := prsq c (k + 1) - prsq c k

/-- `C(s)` (R154). -/
def correlation (c : Cfg) (y : List CInt) (s : Int) : CInt :=
  csum ((pairSet c).map fun k =>
    ((binAt c y (k + 1 + s)).mulConj (binAt c y (k + s))).mul (jpow (-(dq c k))))

/-- The shifts `-S_MAX, …, S_MAX` in rising order (R154). -/
def shifts (c : Cfg) : List Int :=
  (List.range (2 * c.sMax + 1)).map fun j : Nat => (j : Int) - (c.sMax : Int)

/-- The pairs `(s, M(s))` in rising order of `s` (R154). -/
def peaks (c : Cfg) (y : List CInt) : List (Int × Int) :=
  (shifts c).map fun s => (s, (correlation c y s).norm2)

/-- The first pair with the largest second part, scanning from the left; a candidate is replaced only by
a strictly greater one (R155). -/
def firstMax : List (Int × Int) → Int × Int
  | [] => (0, 0)
  | x :: xs => xs.foldl (fun best p => if best.2 < p.2 then p else best) x

/-- `shat` (R155). -/
def shat (c : Cfg) (y : List CInt) : Int := (firstMax (peaks c y)).1

/-- `REST` (R156). -/
def restSum (c : Cfg) (y : List CInt) : Int :=
  (((peaks c y).filter fun p => p.1 != shat c y).map (·.2)).sum

/-- `Q_OK` (R156). -/
def qualityOk (c : Cfg) (y : List CInt) : Bool :=
  let m := (firstMax (peaks c y)).2
  decide (0 < m) && decide ((c.corrNum : Int) * restSum c y ≤ m * (2 * c.sMax : Nat) * c.corrDen)

/-! ### The frequency estimator (R158 to R164) -/

/-- `gamma` of a step that consumed the rotated samples `xr` (R160). -/
def cpCorrelation (c : Cfg) (xr : List CInt) : CInt :=
  let p := xr.length - c.tU - c.cpLen
  csum ((List.range c.cpLen).map fun i =>
    (xr.getD (p + i + c.tU) CInt.zero).mulConj (xr.getD (p + i) CInt.zero))

/-- The carry from fine to coarse: the two tests of R163 in order, on `(COARSE, FINE)`. -/
def carry (coarse : Word) (fine : Int) : Word × Int :=
  let r := if 32768 < fine then (coarse + 1, fine - 65536) else (coarse, fine)
  if r.2 < -32768 then (r.1 - 1, r.2 + 65536) else r

/-- `freq_update(shat, gamma)`: the coarse update, the loop, the carry (R158, R162, R163). -/
def freqUpdate (c : Cfg) (sh : Int) (gamma : CInt) (f : Corrector) : Corrector :=
  let r := carry (f.coarse + BitVec.ofInt 32 sh)
    (f.fine.toInt + Int.tdiv ((c.loopNum : Int) * arg16 c gamma) (c.loopDen : Int))
  { f with coarse := r.1, fine := BitVec.ofInt 32 r.2 }

/-- `freq_report()`: only on change (R164). -/
def freqReport (s : State) : State :=
  if s.freq.coarse = s.freq.lastCoarse ∧ s.freq.fine = s.freq.lastFine then s
  else
    raise (evFreqCorr s.freq.fine s.freq.coarse)
      { s with freq := { s.freq with lastCoarse := s.freq.coarse, lastFine := s.freq.fine } }

/-! ### The steps (R171 to R176) -/

/-- The begin step (R171). -/
def beginStep (s : State) : State := setSync .acquiringNull { s with det := searchReset s.det }

/-- Samples the acquisition step consumes (R172). -/
def acquireLen (c : Cfg) : Nat := c.prsSkip + c.tU

/-- Samples the tracking step consumes (R174). -/
def trackLen (c : Cfg) : Nat := c.tNull + c.tG + c.tU

/-- The FFT window of a step that consumed `xs`: the last `T_U` of them (R172, R174). -/
def window {α : Type} (c : Cfg) (xs : List α) : List α := xs.drop (xs.length - c.tU)

/-- The symbol buffers at the head of a frame: `YPREV <- Y`, `FICBUF` and `MSCBUF` empty (R172, R174). -/
def frameHead (y : List CInt) (s : State) : State :=
  { s with sym := { s.sym with yprev := y, ficbuf := [], mscbuf := [] } }

/-- `SYM_IDX <- v`. -/
def setSymIdx (v : BitVec 8) (s : State) : State := { s with sym := { s.sym with symIdx := v } }

/-- The good branch of the acquisition step (R172). -/
def acquireOk (y : List CInt) (gamma : CInt) (s : State) : State :=
  let s1 := { s with
    cnt := { s.cnt with prsFails := 0, badFrames := 0 }
    freq := freqUpdate s.cfg (shat s.cfg y) gamma s.freq }
  let s2 := setPresence true (setSync .synchronized (setSymIdx 2 (frameHead y s1)))
  let s3 := freqReport s2
  raiseIf s3.ctrl.enIr (evImpulse (impulse s3.cfg y)) s3

/-- `PRS_FAILS <- min(PRS_FAILS + 1, PRS_FAIL_MAX)` (R175). -/
def nextPrsFails (s : State) : Word := BitVec.ofNat 32 (min (s.cnt.prsFails.toNat + 1) s.cfg.prsFailMax)

/-- Acquisition failure (R175). -/
def acquireFail (s : State) : State :=
  let s1 := setSync .acquiringNull
    { s with cnt := { s.cnt with prsFails := nextPrsFails s }, det := searchReset s.det }
  if s1.cfg.prsFailMax ≤ s1.cnt.prsFails.toNat then setPresence false s1 else s1

/-- The phase-reference acquisition step (R172). -/
def acquire (s : State) : State :=
  let n := acquireLen s.cfg
  let raw := consumedRaw n s
  let xr := consumedRot n s
  let y := fft s.cfg (window s.cfg xr)
  let s1 := consume n s
  let s2 := { s1 with sym := { s1.sym with psig := energySum (window s.cfg raw) } }
  if qualityOk s.cfg y then acquireOk y (cpCorrelation s.cfg xr) s2 else acquireFail s2

/-- The captured null samples of a tracking step (R174, 42_demod.md R200). -/
def nullVector (c : Cfg) (raw : List Word) : List Word := slice raw c.nullCapOfs (c.nullCapOfs + c.nullCapLen)

/-- The TII event, when enabled and detected (R174, 42_demod.md R202). -/
def raiseTii (nullvec : List Word) (s : State) : State :=
  if s.ctrl.enTii then
    match tii s.cfg nullvec with
    | some r => raise (evTii r) s
    | none => s
  else s

/-- The diagnostics at the head of a tracked frame, in order (R174, 42_demod.md R198, R201, R202). -/
def headDiagnostics (nullvec : List Word) (s : State) : State :=
  let s1 := raise (evSnr (s.sym.psig / s.cfg.tU) (energySum nullvec / s.cfg.nullCapLen)) s
  raiseTii nullvec (raiseIf s1.ctrl.enNullvec (evNullvec nullvec) s1)

/-- The good branch of the tracking step (R174). -/
def trackOk (y : List CInt) (gamma : CInt) (s : State) : State :=
  let s1 := freqReport { s with
    cnt := { s.cnt with badFrames := 0 }
    freq := freqUpdate s.cfg (shat s.cfg y) gamma s.freq }
  let s2 := setSymIdx 2 s1
  raiseIf s2.ctrl.enIr (evImpulse (impulse s2.cfg y)) s2

/-- Tracking failure (R176). -/
def trackFail (y : List CInt) (s : State) : State :=
  let s1 := { s with cnt := { s.cnt with badFrames := s.cnt.badFrames + 1 } }
  if s1.cfg.nLoss ≤ s1.cnt.badFrames.toNat then
    setSync .unsynchronized (setSymIdx 1 { s1 with sym := { s1.sym with yprev := [] } })
  else
    let s2 := setSymIdx 2 s1
    raiseIf s2.ctrl.enIr (evImpulse (impulse s2.cfg y)) s2

/-- The phase-reference tracking step (R174). -/
def track (s : State) : State :=
  let n := trackLen s.cfg
  let raw := consumedRaw n s
  let xr := consumedRot n s
  let y := fft s.cfg (window s.cfg xr)
  let s1 := consume n s
  let s2 := { s1 with sym := { s1.sym with psig := energySum (window s.cfg raw) } }
  let s3 := frameHead y (headDiagnostics (nullVector s.cfg raw) s2)
  if qualityOk s.cfg y then trackOk y (cpCorrelation s.cfg xr) s3 else trackFail y s3

end Sys2Proof.Machine
end

