-- ==== Sys2Proof/Machine/Demod.lean ====
section
/-! DEFINITION. The differential demodulator, the data-symbol step and the end of a frame
(42_demod.md R186 to R193, R203). -/

namespace Sys2Proof.Machine

/-- `softpair((a, b))` (R187). -/
def softpair (r : CInt) : Soft × Soft :=
  let n1 : Int := r.re.natAbs + r.im.natAbs
  if n1 = 0 then (0, 0) else (Int.tdiv (-127 * r.re) n1, Int.tdiv (-127 * r.im) n1)

/-- The soft-bit pairs of a symbol, in the order of `FMAP` (R186, R189). -/
def softPairs (c : Cfg) (y yprev : List CInt) : List (Soft × Soft) :=
  c.fmap.map fun k => softpair ((binAt c y k).mulConj (binAt c yprev k))

/-- The soft-bit vector of a symbol: the real-axis bits, then the imaginary-axis bits (R189). -/
def softBits (c : Cfg) (y yprev : List CInt) : List Soft :=
  (softPairs c y yprev).map (·.1) ++ (softPairs c y yprev).map (·.2)

/-- A soft bit as an 8-bit two's-complement number (R203). -/
def softByte (x : Soft) : Byte := BitVec.ofInt 8 x

/-- `constellation(soft)`: every `CONST_DECIM`-th pair (R203). -/
def constellation (c : Cfg) (soft : List Soft) : List Word :=
  (List.range ((c.carriers + c.constDecim - 1) / c.constDecim)).map fun j =>
    let i := j * c.constDecim
    (0 : BitVec 16) ++ softByte (soft.getD (c.carriers + i) 0) ++ softByte (soft.getD i 0)

/-- All CIFs of the frame, in order (R193). -/
def cifsProcess (msc : List Soft) (s : State) : State :=
  (List.range s.cfg.cifsPerFrame).foldl (fun t i => cifProcess (slice msc (i * cifBits) ((i + 1) * cifBits)) t) s

/-- The closing assignments of a frame (R193). -/
def frameClose (s : State) : State :=
  { s with
    cnt := { s.cnt with frameCnt := s.cnt.frameCnt + 1 }
    sym := { s.sym with ficbuf := [], mscbuf := [], symIdx := 1 } }

/-- `end_of_frame(soft)` (R193). -/
def endOfFrame (soft : List Soft) (s : State) : State :=
  let s1 := cifsProcess s.sym.mscbuf (ficDecode s.sym.ficbuf s)
  frameClose (raiseIf s1.ctrl.enConst (evConst (constellation s1.cfg soft)) s1)

/-- The soft bits of symbol `l` appended to the buffer of its kind, `YPREV <- Y` (R190, R191). -/
def appendSoft (l : Nat) (y : List CInt) (soft : List Soft) (s : State) : State :=
  if l ≤ s.cfg.nHead then { s with sym := { s.sym with yprev := y, ficbuf := s.sym.ficbuf ++ soft } }
  else { s with sym := { s.sym with yprev := y, mscbuf := s.sym.mscbuf ++ soft } }

/-- The data-symbol step (R191). -/
def symbolStep (s : State) : State :=
  let l := s.sym.symIdx.toNat
  let y := fft s.cfg ((consumedRot s.cfg.tS s).drop s.cfg.tG)
  let soft := softBits s.cfg y s.sym.yprev
  let s1 := appendSoft l y soft (consume s.cfg.tS s)
  if l < s.cfg.symbols then setSymIdx (s.sym.symIdx + 1) s1 else endOfFrame soft s1

end Sys2Proof.Machine
end

