-- ==== Sys2Proof/Machine/Pipe.lean ====
section
/-! DEFINITION. The step of the `PIPE` agent (10_state.md R22, 20_memory.md R62, 41_sync.md R170). -/

namespace Sys2Proof.Machine

/-- `PIPE`'s step while `RUN = 1` by the table of R22; with fewer samples than the step consumes, or
outside the table, it holds (R62). -/
def pipeRun (s : State) : State :=
  match s.sync with
  | .unsynchronized => beginStep s
  | .acquiringNull =>
    match s.rb with
    | [] => s
    | w :: rest => nullSearch w rest s
  | .acquiringPhaseReference => if acquireLen s.cfg ≤ s.rb.length then acquire s else s
  | .synchronized =>
    if s.sym.symIdx.toNat = 1 then
      if trackLen s.cfg ≤ s.rb.length then track s else s
    else if 2 ≤ s.sym.symIdx.toNat ∧ s.sym.symIdx.toNat ≤ s.cfg.symbols ∧ s.cfg.tS ≤ s.rb.length then
      symbolStep s
    else s

/-- `PIPE`'s step; it holds while `RUN = 0` (R170). -/
def pipeStep (s : State) : State := if s.flags.run then pipeRun s else s

end Sys2Proof.Machine
end

