-- ==== Sys2Proof/Machine/Schedule.lean ====
section
/-! DEFINITION. The interleaving of the agents: any order and any inputs at all (00_scope.md R18,
20_memory.md R77, 93_implementation_defined.md U8, U9), under the fairness of 60_exceptions.md R331. -/

namespace Sys2Proof.Machine

/-- The agent whose turn it is (R18). -/
def turnAgent : Turn → Agent
  | .cmd => .cmd
  | .pipe => .pipe
  | .push _ => .src
  | .miss _ => .src
  | .fail => .src
  | .command _ => .host
  | .collect => .host

/-- A turn of the agent `a`: the turn `t` if it is one. Any turn of `a` is the value for some `t`; for the others
the value is a turn of `a` as good as any (a miss of 0 samples, which is not enabled; a collection). -/
def turnOf (a : Agent) (t : Turn) : Turn :=
  if turnAgent t = a then t
  else match a with
    | .cmd => .cmd
    | .pipe => .pipe
    | .src => .miss 0
    | .host => .collect

/-- The agent whose turn ends round `k`: each of the four in every four rounds. -/
def roundAgent (k : Nat) : Agent :=
  match k % 4 with
  | 0 => .cmd
  | 1 => .pipe
  | 2 => .src
  | _ => .host

/-- Round `k` of the interleaving: free turns, as many as there are, then one of the agent the round is for. No
bound holds on how many turns come in between (R331). -/
def turnRound (k : Nat) : List Turn := Config.freeTurns k ++ [turnOf (roundAgent k) (Config.freeTurn k)]

/-- Turn `n` of the interleaving, the rounds being taken in order. The interleavings this allows are exactly those
in which each agent has a turn again and again, so an agent whose step stays enabled is scheduled (R331; log 2,
log 13). -/
def schedule (n : Nat) : Turn := ((List.range (n + 1)).flatMap turnRound).getD n .pipe

end Sys2Proof.Machine
end

