-- ==== Sys2Proof/Machine/Source.lean ====
section
/-! DEFINITION. The steps of the agents outside the core: `SRC` (20_memory.md R63, R64, 60_exceptions.md
R318, R319) and `HOST` (20_memory.md R65). A step that is not enabled changes nothing. -/

namespace Sys2Proof.Machine

/-- `SRC` push (R63). -/
def srcPush (w : Word) (s : State) : State :=
  if s.rb.length < s.cfg.rbDepth ∧ s.flags.srcFail = false then { s with rb := s.rb ++ [w] } else s

/-- `SRC` miss of `m ≥ 1` samples (R64). -/
def srcMiss (m : Nat) (s : State) : State :=
  if 1 ≤ m ∧ s.flags.srcFail = false then
    { s with cnt := { s.cnt with missed := s.cnt.missed + BitVec.ofNat 32 m } }
  else s

/-- The source-failure step, the one hard stop, when enabled (R318). -/
def sourceFailure (s : State) : State :=
  let s1 := raise (evMsg true 0x01)
    { s with
      flags := { s.flags with srcFail := true, run := false }
      sym := { s.sym with symIdx := 1 } }
  setPresence false (setSync .unsynchronized s1)

/-- `SRC` fail (R318, R319). -/
def srcFailStep (s : State) : State := if s.flags.srcFail then s else sourceFailure s

/-- `HOST` appends a command word (R65). -/
def hostCommand (w : Word) (s : State) : State := { s with cmdq := s.cmdq ++ [w] }

/-- `HOST` collects the oldest response (R65; log 3). -/
def hostCollect (s : State) : State := { s with rsp := s.rsp.drop 1 }

end Sys2Proof.Machine
end

