-- ==== Sys2Proof/Machine/Step.lean ====
section
/-! DEFINITION. One step: one agent takes one atomic step (00_scope.md R18, 20_memory.md R73, R77). -/

namespace Sys2Proof.Machine

/-- The step of the agent a turn names. -/
def takeTurn (t : Turn) (s : State) : Host.Outcome State Fault Refusal :=
  match t with
  | .cmd => cmdStep s
  | .pipe => .next (pipeStep s)
  | .push w => .next (srcPush w s)
  | .miss m => .next (srcMiss m s)
  | .fail => .next (srcFailStep s)
  | .command w => .next (hostCommand w s)
  | .collect => .next (hostCollect s)

/-- The turn that comes next: the first of those already fixed, else the next of the schedule, which is free but
for the fairness of 60_exceptions.md R331 (log 2, log 13). -/
def chosenTurn (s : State) : Turn :=
  match s.turns with
  | t :: _ => t
  | [] => schedule s.tick

/-- The state with the choice of the agent used up (log 2). -/
def afterChoice (s : State) : State :=
  match s.turns with
  | _ :: ts => { s with turns := ts }
  | [] => { s with tick := s.tick + 1 }

/-- One step of the core and its environment. -/
def step (s : State) : Host.Outcome State Fault Refusal := takeTurn (chosenTurn s) (afterChoice s)

/-- The state in which the very next step fetches and runs the command word of `w`: it stands at the head
of `CMDQ` and the next turn is `CMD`'s (40_commands.md R110; log 4). -/
def State.withFetchWord (s : State) (nbits w : Nat) : State :=
  { s with cmdq := tableWord nbits w :: s.cmdq, turns := .cmd :: s.turns }

end Sys2Proof.Machine
end

