-- ==== Sys2Proof/Safety.lean ====
section
/-! DEFINITION. What the claims are stated in terms of: a step that never stops, runs and their fairness, the
invariants of the state, and the readings of an event trace. -/

namespace Sys2Proof.Machine

/-- The step answers a next state: no fault, no refusal (60_exceptions.md R310). -/
def State.Goes (s : State) : Prop := ∃ t, step s = .next t

/-- A property that every step keeps, whichever agent takes it. -/
def Kept (P : State → Prop) : Prop := ∀ s t : State, P s → step s = .next t → P t

/-! ### Runs and fairness -/

/-- The state one step later; a step that stopped would leave the state. -/
def nextState (s : State) : State :=
  match step s with
  | .next t => t
  | .fault _ => s
  | .refused _ => s

/-- The state `n` steps later. -/
def after : Nat → State → State
  | 0, s => s
  | n + 1, s => after n (nextState s)

/-- The column "samples consumed" of the table of 10_state.md R22, for `RUN = 1`. -/
def samplesNeeded (s : State) : Nat :=
  match s.sync with
  | .unsynchronized => 0
  | .acquiringNull => 1
  | .acquiringPhaseReference => s.cfg.prsSkip + s.cfg.tU
  | .synchronized => if s.sym.symIdx.toNat = 1 then s.cfg.tNull + s.cfg.tG + s.cfg.tU else s.cfg.tS

/-- A step of the agent is enabled: `CMD`'s while `CMDQ` is not empty (40_commands.md R110); `PIPE`'s while
`RUN = 1`, at a place of the table of 10_state.md R22, with the samples there (20_memory.md R62); `SRC`'s miss
step while `SRC_FAIL = 0` (R64, 60_exceptions.md R319); `HOST`'s at any time (20_memory.md R65). -/
def Enabled (a : Agent) (s : State) : Prop :=
  match a with
  | .cmd => s.cmdq ≠ []
  | .pipe => s.flags.run = true ∧
      (s.sync = .synchronized → 1 ≤ s.sym.symIdx.toNat ∧ s.sym.symIdx.toNat ≤ s.cfg.symbols) ∧
      samplesNeeded s ≤ s.rb.length
  | .src => s.flags.srcFail = false
  | .host => True

/-- Fairness of the run from `s`: an agent whose step stays enabled is eventually scheduled
(60_exceptions.md R331). -/
def WeaklyFair (s : State) : Prop :=
  ∀ (a : Agent) (n : Nat), (∀ m, n ≤ m → Enabled a (after m s)) →
    ∃ m, n ≤ m ∧ turnAgent (chosenTurn (after m s)) = a

/-! ### The session table -/

/-- The Capacity-Unit ranges of two descriptors have no unit in common (10_state.md R44). -/
def Descriptor.Apart (d e : Descriptor) : Prop :=
  d.startCu.toNat + d.sizeCu.toNat ≤ e.startCu.toNat ∨ e.startCu.toNat + e.sizeCu.toNat ≤ d.startCu.toNat

/-- The range of a descriptor is not empty and lies inside the CIF (10_state.md R44). -/
def Descriptor.Inside (d : Descriptor) : Prop :=
  1 ≤ d.sizeCu.toNat ∧ d.startCu.toNat + d.sizeCu.toNat ≤ cifCu

/-- The fields of an open slot agree (10_state.md R42, R49, R50): the error code is the descriptor check's,
`MISMATCH` says whether it is not 0, `TDI_CNT` and `SF_FILL` count what the buffers hold, and the buffers of
a stage that the descriptor does not use are empty. -/
structure Session.Consistent (c : Cfg) (x : Session) : Prop where
  errcode : x.errcode = checkDescriptor c x.desc
  mismatch : x.mismatch = (x.errcode != 0)
  tdiCnt : x.tdiCnt.toNat = x.tdiH.length
  tdiMost : x.tdiH.length ≤ 16
  tdiUnused : x.desc.tdiEn = false → x.tdiH = []
  sfFill : x.sfFill.toNat = x.sfBuf.length
  sfMost : x.sfBuf.length ≤ 4
  sfUnused : x.desc.type ≠ 2 → x.sfBuf = []

/-- The invariant of the session table (10_state.md R44, R42). -/
structure State.SlotsOk (s : State) : Prop where
  inside : ∀ id x, slot s id = some x → x.desc.Inside
  apart : ∀ a b x y, a ≠ b → slot s a = some x → slot s b = some y → x.desc.Apart y.desc
  consistent : ∀ id x, slot s id = some x → x.Consistent s.cfg

/-! ### The null detector -/

/-- The null-detector state is what R45, R141 and R142 say: the window holds `W_NULL` energies of at most 2^31,
`WSUM` is their sum, `WPOS` is a slot, the level and the age are within their bounds. -/
structure State.DetectorOk (s : State) : Prop where
  slots : s.det.win.length = s.cfg.wNull
  energies : ∀ e ∈ s.det.win, e ≤ 2 ^ 31
  sum : s.det.wsum = s.det.win.sum
  place : s.det.wpos < s.cfg.wNull
  level : s.det.slevel.toNat ≤ 2 ^ (31 + s.cfg.lvlShift)
  age : s.det.lvlAge ≤ s.cfg.nWarm

/-! ### The frame position and the symbol buffers -/

/-- The soft bits one symbol yields, `2 * K` (42_demod.md R189). -/
def symbolSoft (c : Cfg) : Nat := 2 * c.carriers

/-- The FIC symbols demodulated when `SYM_IDX = l` (42_demod.md R190). -/
def ficSymbolsBefore (c : Cfg) (l : Nat) : Nat := min (l - 2) c.ficSyms

/-- The MSC symbols demodulated when `SYM_IDX = l` (42_demod.md R190). -/
def mscSymbolsBefore (c : Cfg) (l : Nat) : Nat := l - (c.nHead + 1)

/-- `SYM_IDX` is a symbol of the frame, 1 outside `Synchronized`, and inside a frame `FICBUF` and `MSCBUF`
hold the soft bits of exactly the symbols demodulated so far (10_state.md R22, R47, 42_demod.md R190). -/
structure State.FrameOk (s : State) : Prop where
  outside : s.sync ≠ .synchronized → s.sym.symIdx = 1
  inside : s.sync = .synchronized → 1 ≤ s.sym.symIdx.toNat ∧ s.sym.symIdx.toNat ≤ s.cfg.symbols
  fic : s.sync = .synchronized →
    s.sym.ficbuf.length = ficSymbolsBefore s.cfg s.sym.symIdx.toNat * symbolSoft s.cfg
  msc : s.sync = .synchronized →
    s.sym.mscbuf.length = mscSymbolsBefore s.cfg s.sym.symIdx.toNat * symbolSoft s.cfg
  ficMost : s.sym.ficbuf.length ≤ s.cfg.ficSyms * symbolSoft s.cfg
  mscMost : s.sym.mscbuf.length ≤ (s.cfg.symbols - s.cfg.nHead) * symbolSoft s.cfg

/-! ### Registers with a bound -/

/-- `FINE` in `[-32768, 32768]` (10_state.md R32), `BAD_FRAMES` at most `N_LOSS` and below it while
`Synchronized`, `PRS_FAILS` at most `PRS_FAIL_MAX` (R35), `RB` within its capacity (20_memory.md R61). -/
structure State.BoundsOk (s : State) : Prop where
  fineLow : -32768 ≤ s.freq.fine.toInt
  fineHigh : s.freq.fine.toInt ≤ 32768
  badFrames : s.cnt.badFrames.toNat ≤ s.cfg.nLoss
  badInSync : s.sync = .synchronized → s.cnt.badFrames.toNat < s.cfg.nLoss
  prsFails : s.cnt.prsFails.toNat ≤ s.cfg.prsFailMax
  ring : s.rb.length ≤ s.cfg.rbDepth

/-! ### Soft bits -/

/-- A soft bit lies in `[-127, 127]` (20_memory.md R69). -/
def SoftOk (x : Soft) : Prop := -127 ≤ x ∧ x ≤ 127

/-- Every soft bit the core holds is in range (20_memory.md R69). -/
structure State.SoftsOk (s : State) : Prop where
  fic : ∀ x ∈ s.sym.ficbuf, SoftOk x
  msc : ∀ x ∈ s.sym.mscbuf, SoftOk x
  tdi : ∀ id y v x, slot s id = some y → v ∈ y.tdiH → x ∈ v → SoftOk x

/-! ### Reading the event trace -/

/-- The records a step appended to `EVT`. -/
def newEvents (s t : State) : List Event := t.evt.drop s.evt.length

/-- The records with the code `c`. -/
def withCode (c : BitVec 8) (es : List Event) : List Event := es.filter fun e => e.code == c

/-- The records of the session `id` (30_encoding.md R98). -/
def ofSession (id : Fin 64) (es : List Event) : List Event := es.filter fun e => e.sub == subField id

/-- The records other than the four optional diagnostics behind `CTRL`: impulse response, constellation,
null-symbol vector, TII (10_state.md R29, 30_encoding.md R99). -/
def mandatory (es : List Event) : List Event :=
  es.filter fun e => e.code != 0x05 && e.code != 0x06 && e.code != 0x07 && e.code != 0x08

/-! ### The phase-reference steps -/

/-- The FFT output a phase-reference acquisition step on `s` examines (41_sync.md R172). -/
def acquireSpectrum (s : State) : List CInt :=
  fft s.cfg (window s.cfg (consumedRot (acquireLen s.cfg) s))

/-- The FFT output a phase-reference tracking step on `s` examines (41_sync.md R174). -/
def trackSpectrum (s : State) : List CInt := fft s.cfg (window s.cfg (consumedRot (trackLen s.cfg) s))

/-! ### The convolutional code -/

/-- The total of the soft values of a mother codeword: `m[t]` where the code bit is 1, `-m[t]` where it is 0
(43_viterbi_fic.md R217). -/
def pathTotal (u : List Bool) (m : List Soft) : Int :=
  (List.zipWith (fun (b : Bool) (x : Soft) => if b then x else -x) u m).sum

/-! ### The silent search -/

/-- The search on silence (41_sync.md R148 a): `PIPE` searches for a null symbol, every energy seen so far was 0
and every sample in `RB` is 0. -/
structure State.Silent (s : State) : Prop where
  runs : s.flags.run = true
  searching : s.sync = .acquiringNull
  seeking : s.det.nullPhase = .seekDip
  window : ∀ e ∈ s.det.win, e = 0
  sum : s.det.wsum = 0
  level : s.det.slevel = 0
  samples : ∀ w ∈ s.rb, w = 0

end Sys2Proof.Machine
end

