-- ==== Sys2Proof/Certificates/Slice0/Obligations.lean ====
section
/-! DEFINITION. The statements for the provers. Rules R<n> are those of spec/; "log <n>" is
notes/assumptions/<n>.md. The core has no memory and no program counter (20_memory.md R60, 10_state.md R22),
so a frame is an equation for the whole next state. -/

open Sys2Proof Sys2Proof.Machine

/-! ### Encoding -/

/-- Words written out from the encodings of R111 to R124 decode to the commands they stand for. -/
def Obligations.DecodeWrittenWords : Prop :=
  decode 0x00000000 = .command .nop ∧ decode 0x01000001 = .command (.restart true) ∧
  decode 0x02000000 = .command .stop ∧ decode 0x0302002D = .command (.ldpl 2 0x002D) ∧
  decode 0x04020008 = .command (.ldph 2 0x0008) ∧ decode 0x05070000 = .command (.rdp 7) ∧
  decode 0x06010000 = .command (.wrcsr 0x01) ∧ decode 0x070E0000 = .command (.rdcsr 0x0E) ∧
  decode 0x08050000 = .command (.sopen 5) ∧ decode 0x093F0000 = .command (.sclose 63) ∧
  decode 0x0A050000 = .command (.sstat 5) ∧ decode 0x0B000000 = .illegal ∧ decode 0x03080001 = .malformed

/-- A word decodes to a command exactly when the command is well formed and the word is its encoding: every
operand at every value, no bit dropped, no second word for a command (R90, R92, R93). -/
def Obligations.DecodeEncodeAgree : Prop :=
  ∀ (w : Word) (i : Instr), decode w = .command i ↔ i.WellFormed ∧ encode i = w

/-- The three outcomes of decoding in the order of R93, with every field constraint of R92. -/
def Obligations.DecodeThreeOutcomes : Prop :=
  ∀ w : Word,
    let op := (w.extractLsb' 24 8).toNat
    let a := (w.extractLsb' 16 8).toNat
    let imm := (w.extractLsb' 0 16).toNat
    (decode w = .illegal ↔ 0x0A < op) ∧
    (decode w = .malformed ↔ op ≤ 0x0A ∧
      (((op = 0x00 ∨ op = 0x02) ∧ (a ≠ 0 ∨ imm ≠ 0)) ∨ (op = 0x01 ∧ (a ≠ 0 ∨ 1 < imm)) ∨
       ((op = 0x03 ∨ op = 0x04) ∧ 7 < a) ∨ (op = 0x05 ∧ (7 < a ∨ imm ≠ 0)) ∨
       ((op = 0x06 ∨ op = 0x07) ∧ imm ≠ 0) ∨ ((op = 0x08 ∨ op = 0x09 ∨ op = 0x0A) ∧ (63 < a ∨ imm ≠ 0)))) ∧
    (decode w ≠ .illegal → decode w ≠ .malformed → ∃ i : Instr, decode w = .command i ∧ i.opcode.toNat = op)

/-! ### The step and the command executor -/

/-- When it is `CMD`'s turn and the head word of `CMDQ` decodes to a command, the step is that command's meaning
on the state without that word (R110); the choice of the turn is used up (log 2). -/
def Obligations.StepRunsDecodedCommand : Prop :=
  ∀ (s : State) (w : Word) (rest : List Word) (i : Instr),
    chosenTurn s = .cmd → s.cmdq = w :: rest → decode w = .command i →
    step s = exec i { afterChoice s with cmdq := rest } ∧
    (∀ ts, s.turns = .cmd :: ts → step s = exec i { s with cmdq := rest, turns := ts })

/-- Illegal and malformed words: one response with the opcode bits, the status and the whole word; no other state
changes and no event is raised (R125). -/
def Obligations.OtherWordsRefused : Prop :=
  ∀ (s : State) (w : Word) (rest : List Word), chosenTurn s = .cmd → s.cmdq = w :: rest →
    (decode w = .illegal → step s = .next { afterChoice s with
      cmdq := rest, rsp := s.rsp ++ [⟨w.extractLsb' 24 8, 0x06, w⟩] }) ∧
    (decode w = .malformed → step s = .next { afterChoice s with
      cmdq := rest, rsp := s.rsp ++ [⟨w.extractLsb' 24 8, 0x05, w⟩] })

/-- `NOP` answers `OK` and changes nothing else (R111). -/
def Obligations.NopCompletes : Prop :=
  ∀ s : State, exec .nop s = .next { s with rsp := s.rsp ++ [⟨0x00, 0x00, 0⟩] }

/-- `RESTART` gives every item of state its reset value except `P`, `CTRL` and the three queues `CMDQ`, `RSP`, `EVT`;
it sets `RUN`, copies the operand to `SCAN`, raises `EV_SYNC_STATE(0)` if the state was not 0 and then
`EV_PRESENCE(0)` if the bit was 1, and answers `OK` (R112, R342). A second `RESTART` with the same operand
changes nothing but `RSP`. -/
def Obligations.RestartCompletes : Prop :=
  ∀ (b : Bool) (s : State), ∃ t, exec (.restart b) s = .next t ∧
    t = { State.resetWith s.cfg with
      p := s.p, ctrl := s.ctrl, flags := ⟨true, b, false, false⟩, cmdq := s.cmdq
      rsp := s.rsp ++ [⟨0x01, 0x00, 0⟩]
      evt := s.evt ++ (if s.sync = .unsynchronized then [] else [⟨0x01, 0, [0]⟩]) ++
        (if s.flags.presence then [⟨0x04, 0, [0]⟩] else [])
      turns := s.turns, tick := s.tick, draws := s.draws } ∧
    exec (.restart b) t = .next { t with rsp := t.rsp ++ [⟨0x01, 0x00, 0⟩] }

/-- `STOP` clears `RUN`, answers `OK`, changes nothing else and raises no event; `PIPE` holds afterwards (R113). -/
def Obligations.StopCompletes : Prop :=
  ∀ s : State, ∃ t, exec .stop s = .next t ∧
    t = { s with flags := { s.flags with run := false }, rsp := s.rsp ++ [⟨0x02, 0x00, 0⟩] } ∧ pipeStep t = t

/-- `LDPL`: the register becomes the zero-extended immediate, so its high half is 0; the response carries it; nothing
else changes (R115). -/
def Obligations.LdplCompletes : Prop :=
  ∀ (a : BitVec 8) (imm : BitVec 16) (s : State) (h : a.toNat < 8),
    exec (.ldpl a imm) s = .next { s with
      p := s.p.set a.toNat (imm.setWidth 32) h, rsp := s.rsp ++ [⟨0x03, 0x00, imm.setWidth 32⟩] }

/-- `LDPH`: `x[i] <- (imm16 << 16) | x[i][15:0]`; the response carries it; nothing else changes (R116). -/
def Obligations.LdphCompletes : Prop :=
  ∀ (a : BitVec 8) (imm : BitVec 16) (s : State) (h : a.toNat < 8),
    let v : Word := imm.setWidth 32 <<< 16 ||| (s.p[a.toNat] &&& 0x0000FFFF)
    exec (.ldph a imm) s = .next { s with p := s.p.set a.toNat v h, rsp := s.rsp ++ [⟨0x04, 0x00, v⟩] }

/-- `RDP`: the response carries the register; nothing else changes (R117). -/
def Obligations.RdpCompletes : Prop :=
  ∀ (a : BitVec 8) (s : State) (h : a.toNat < 8),
    exec (.rdp a) s = .next { s with rsp := s.rsp ++ [⟨0x05, 0x00, s.p[a.toNat]⟩] }

/-- `WRCSR`: `ERR_NOCSR` above 0x0F, `ERR_RO` for every other index but 0x01; for 0x01 `CTRL` takes `P[0][3:0]` and the
response carries what it now holds, bits 31:4 zero (R121, R29). -/
def Obligations.WrcsrCompletes : Prop :=
  ∀ (a : BitVec 8) (s : State),
    (0x0F < a.toNat → exec (.wrcsr a) s = .next { s with rsp := s.rsp ++ [⟨0x06, 0x08, 0⟩] }) ∧
    (a.toNat ≤ 0x0F → a ≠ 0x01 → exec (.wrcsr a) s = .next { s with rsp := s.rsp ++ [⟨0x06, 0x07, 0⟩] }) ∧
    (a = 0x01 → exec (.wrcsr a) s = .next { s with
      ctrl := ⟨s.p[0].getLsbD 0, s.p[0].getLsbD 1, s.p[0].getLsbD 2, s.p[0].getLsbD 3⟩
      rsp := s.rsp ++ [⟨0x06, 0x00, s.p[0] &&& 0x0000000F⟩] })

/-- `RDCSR` completes in every state. Above 0x0F it answers `ERR_NOCSR`; at each of the sixteen indices the response
carries what the register reads, `STATUS` and `CTRL` as the sums of their fields, the others as R28 to R38 say;
nothing else changes (R122, R28 to R38). -/
def Obligations.RdcsrCompletes : Prop :=
  ∀ (a : BitVec 8) (s : State),
    (0x0F < a.toNat → exec (.rdcsr a) s = .next { s with rsp := s.rsp ++ [⟨0x07, 0x08, 0⟩] }) ∧
    (a.toNat ≤ 0x0F → ∃ v, exec (.rdcsr a) s = .next { s with rsp := s.rsp ++ [⟨0x07, 0x00, v⟩] } ∧
      readCsr s a = some v ∧ (a = 0x00 → v = 0x57444331) ∧
      (a = 0x01 → v.toNat = bitNat s.ctrl.enIr + 2 * bitNat s.ctrl.enConst + 4 * bitNat s.ctrl.enNullvec +
        8 * bitNat s.ctrl.enTii) ∧
      (a = 0x02 → v.toNat = s.sync.code.toNat + 4 * bitNat s.flags.presence + 8 * bitNat s.flags.run +
        16 * bitNat s.flags.scan + 32 * bitNat s.flags.srcFail + 64 * bitNat (s.det.nullPhase == .inDip) +
        256 * s.sym.symIdx.toNat) ∧
      (a = 0x03 → v = s.freq.coarse) ∧ (a = 0x04 → v = s.freq.fine) ∧
      (a = 0x05 → v = s.cnt.missed) ∧ (a = 0x06 → v = s.cnt.frameCnt) ∧ (a = 0x07 → v = s.cnt.badFrames) ∧
      (a = 0x08 → v = s.cnt.ficOk) ∧ (a = 0x09 → v = s.cnt.ficFail) ∧
      (a = 0x0A → v.toNat = s.det.slevel.toNat % 2 ^ 32) ∧ (a = 0x0B → v.toNat = s.det.slevel.toNat / 2 ^ 32) ∧
      (a = 0x0C → v = s.cnt.cifCnt) ∧
      (a = 0x0D → v.toNat = (List.finRange 64).countP fun id => (slot s id).isSome) ∧
      (a = 0x0E → v = BitVec.ofNat 32 s.cfg.mode) ∧ (a = 0x0F → v = s.cnt.prsFails))

/-- The fields of `STATUS` and `CTRL` as the responses of `RDCSR` carry them: every bit of both words (R29, R30). -/
def Obligations.CsrFields : Prop :=
  ∀ s : State, ∃ v c, readCsr s 0x02 = some v ∧ readCsr s 0x01 = some c ∧
    exec (.rdcsr 0x02) s = .next { s with rsp := s.rsp ++ [⟨0x07, 0x00, v⟩] } ∧
    exec (.rdcsr 0x01) s = .next { s with rsp := s.rsp ++ [⟨0x07, 0x00, c⟩] } ∧
    v.extractLsb' 0 2 = s.sync.code ∧ v.getLsbD 2 = s.flags.presence ∧ v.getLsbD 3 = s.flags.run ∧
    v.getLsbD 4 = s.flags.scan ∧ v.getLsbD 5 = s.flags.srcFail ∧
    v.getLsbD 6 = (s.det.nullPhase == .inDip) ∧ v.getLsbD 7 = false ∧
    v.extractLsb' 8 8 = s.sym.symIdx ∧ v.extractLsb' 16 16 = 0 ∧
    c.getLsbD 0 = s.ctrl.enIr ∧ c.getLsbD 1 = s.ctrl.enConst ∧ c.getLsbD 2 = s.ctrl.enNullvec ∧
    c.getLsbD 3 = s.ctrl.enTii ∧ c.extractLsb' 4 28 = 0

/-! ### Session commands -/

/-- `SOPEN` that opens nothing: on an open slot `OK_REUSED` whatever `P` holds; else `ERR_RANGE` for a range outside the
CIF; else `ERR_OVERLAP` with the LOWEST id whose range meets the request; nothing but `RSP` changes
(R118, R120, R320). -/
def Obligations.SopenRefuses : Prop :=
  ∀ (a : BitVec 8) (s : State) (h : a.toNat < 64),
    let d := descriptor s.p
    (∀ x, slot s ⟨a.toNat, h⟩ = some x →
      exec (.sopen a) s = .next { s with rsp := s.rsp ++ [⟨0x08, 0x01, 0⟩] }) ∧
    (slot s ⟨a.toNat, h⟩ = none → (d.sizeCu = 0 ∨ 864 < d.startCu.toNat + d.sizeCu.toNat) →
      exec (.sopen a) s = .next { s with rsp := s.rsp ++ [⟨0x08, 0x04, 0⟩] }) ∧
    (slot s ⟨a.toNat, h⟩ = none → d.Inside → ∀ (o : Fin 64) (x : Session), slot s o = some x →
      ¬ d.Apart x.desc → (∀ (o' : Fin 64) (y : Session), o' < o → slot s o' = some y → d.Apart y.desc) →
      exec (.sopen a) s = .next { s with rsp := s.rsp ++ [⟨0x08, 0x03, BitVec.ofNat 32 o.val⟩] })

/-- `SOPEN` of a closed slot whose range lies in the CIF and meets no open slot opens it with the descriptor of
`P[0..5]`, the verdict of the check and empty buffers, answers `OK` with the `ERRCODE`, and changes
nothing else; the fields of the descriptor of `P` are the bits of the table of R40, whatever `P` holds
(R118, R40, R42). -/
def Obligations.SopenOpens : Prop :=
  (∀ p : Vector Word 8,
    let d := descriptor p
    d.type.toNat = p[0].toNat % 4 ∧ d.edispEn = p[0].toNat.testBit 4 ∧ d.tdiEn = p[0].toNat.testBit 5 ∧
    d.fcEn = p[0].toNat.testBit 6 ∧ d.nseg.toNat = p[0].toNat / 2 ^ 8 % 8 ∧
    d.startCu.toNat = p[1].toNat % 2 ^ 10 ∧ d.sizeCu.toNat = p[1].toNat / 2 ^ 16 % 2 ^ 10 ∧
    ∀ j (_ : j < 4), d.segs[j].len.toNat = p[2 + j].toNat % 2 ^ 16 ∧
      d.segs[j].pi.toNat = p[2 + j].toNat / 2 ^ 16 % 2 ^ 5) ∧
  ∀ (a : BitVec 8) (s : State) (h : a.toNat < 64),
    slot s ⟨a.toNat, h⟩ = none → (descriptor s.p).Inside →
    (∀ (o : Fin 64) (x : Session), slot s o = some x → (descriptor s.p).Apart x.desc) →
    ∃ d err, d = descriptor s.p ∧ err = checkDescriptor s.cfg d ∧
      exec (.sopen a) s = .next { s with
        sess := s.sess.set a.toNat (some ⟨d, err != 0, err, 0, [], 0, []⟩) h
        rsp := s.rsp ++ [⟨0x08, 0x00, err.setWidth 32⟩] }

/-- The descriptor check returns the first error code whose condition holds, in the order of R101, else 0 (R119). -/
def Obligations.CheckDescriptorOrder : Prop :=
  ∀ (c : Cfg) (d : Descriptor),
    let used := d.segs.toList.take d.nseg.toNat
    let suml := (used.map fun g => g.len.toNat).sum
    let npunct := (used.map fun g => g.len.toNat * 4 * (8 + g.pi.toNat)).sum + c.piTail.count true
    let e1 := d.nseg.toNat = 0 ∨ 4 < d.nseg.toNat
    let e2 := ∃ g ∈ used, g.pi.toNat = 0 ∨ 24 < g.pi.toNat
    let e3 := suml = 0
    let e4 := d.type.toNat = 3
    let e5 := npunct ≠ d.sizeCu.toNat * 64
    let e6 := d.type.toNat = 2 ∧ suml % 6 ≠ 0
    (e1 → checkDescriptor c d = 0x01) ∧ (¬ e1 → e2 → checkDescriptor c d = 0x02) ∧
    (¬ e1 → ¬ e2 → e3 → checkDescriptor c d = 0x03) ∧ (¬ e1 → ¬ e2 → ¬ e3 → e4 → checkDescriptor c d = 0x04) ∧
    (¬ e1 → ¬ e2 → ¬ e3 → ¬ e4 → e5 → checkDescriptor c d = 0x05) ∧
    (¬ e1 → ¬ e2 → ¬ e3 → ¬ e4 → ¬ e5 → e6 → checkDescriptor c d = 0x06) ∧
    (¬ e1 → ¬ e2 → ¬ e3 → ¬ e4 → ¬ e5 → ¬ e6 → checkDescriptor c d = 0x00)

/-- `SCLOSE`: an open slot is closed with its buffers and the answer is `OK`; a closed one answers `ERR_NOT_OPEN`; no other
slot and nothing else changes (R123). -/
def Obligations.ScloseCompletes : Prop :=
  ∀ (a : BitVec 8) (s : State) (h : a.toNat < 64),
    (∀ x, slot s ⟨a.toNat, h⟩ = some x → exec (.sclose a) s = .next { s with
      sess := s.sess.set a.toNat none h, rsp := s.rsp ++ [⟨0x09, 0x00, 0⟩] }) ∧
    (slot s ⟨a.toNat, h⟩ = none → exec (.sclose a) s = .next { s with rsp := s.rsp ++ [⟨0x09, 0x02, 0⟩] })

/-- `SSTAT`: the response carries 0 for a closed slot and the fields of R102, every bit of the word, for an open one;
nothing else changes (R124). -/
def Obligations.SstatCompletes : Prop :=
  ∀ (a : BitVec 8) (s : State) (h : a.toNat < 64), ∃ v : Word,
    exec (.sstat a) s = .next { s with rsp := s.rsp ++ [⟨0x0A, 0x00, v⟩] } ∧
    (slot s ⟨a.toNat, h⟩ = none → v = 0) ∧
    (∀ x, slot s ⟨a.toNat, h⟩ = some x →
      v.getLsbD 0 = true ∧ v.extractLsb' 1 2 = x.desc.type ∧ v.getLsbD 3 = x.mismatch ∧
      (v.getLsbD 4 = true ↔ x.desc.tdiEn = false ∨ x.tdiCnt = 16) ∧ v.extractLsb' 5 3 = x.sfFill ∧
      v.extractLsb' 8 8 = x.errcode ∧ v.extractLsb' 16 16 = 0)

/-- Terms whose index is out of range, which no word decodes to, answer as the malformed word that encodes them would:
`ERR_OPERAND`, the word as data, nothing else changed. The model's choice for terms (log 10). -/
def Obligations.OutOfRangeIndexTerms : Prop :=
  ∀ (i : Instr) (s : State), ¬ i.WellFormed →
    exec i s = .next { s with rsp := s.rsp ++ [⟨i.opcode, 0x05, encode i⟩] }

/-- Every command, in every state, answers exactly one record with its own opcode and a status of R97; when the status is
not `OK` nothing but `RSP` has changed (R96, R97, R310, R311). -/
def Obligations.EveryCommandAnswersOnce : Prop :=
  ∀ (i : Instr) (s : State), ∃ t r, exec i s = .next t ∧ t.rsp = s.rsp ++ [r] ∧ r.op = i.opcode ∧
    r.status.toNat ≤ 8 ∧ (r.status ≠ 0x00 → t = { s with rsp := s.rsp ++ [r] })

/-- Which command may write what: the frame of the command set (R21, R26, R29, R39, R112, R330). -/
def Obligations.CommandFrame : Prop :=
  ∀ (i : Instr) (s t : State), exec i s = .next t →
    (t.cfg = s.cfg ∧ t.cmdq = s.cmdq ∧ t.turns = s.turns ∧ t.tick = s.tick ∧ t.draws = s.draws) ∧
    ((∀ b, i ≠ .restart b) → t.sync = s.sync ∧ t.cnt = s.cnt ∧ t.det = s.det ∧ t.freq = s.freq ∧
      t.sym = s.sym ∧ t.rb = s.rb ∧ t.evt = s.evt ∧ t.flags.scan = s.flags.scan ∧
      t.flags.srcFail = s.flags.srcFail ∧ t.flags.presence = s.flags.presence) ∧
    ((∀ b, i ≠ .restart b) → i ≠ .stop → t.flags.run = s.flags.run) ∧
    ((∀ a v, i ≠ .ldpl a v) → (∀ a v, i ≠ .ldph a v) → t.p = s.p) ∧
    ((∀ a, i ≠ .wrcsr a) → t.ctrl = s.ctrl) ∧
    ((∀ b, i ≠ .restart b) → ∀ id : Fin 64, i ≠ .sopen (subField id) → i ≠ .sclose (subField id) →
      slot t id = slot s id)

/-! ### The machine -/

/-- Every state has a next state: nothing faults, nothing is refused by the model (R310, R314). Every run is fair:
an agent whose step stays enabled is eventually scheduled; so the word at the head of `CMDQ` is answered, by the
response that the step serving it appends (R331). -/
def Obligations.StepNeverStops : Prop :=
  (∀ s : State, s.Goes) ∧ (∀ s : State, WeaklyFair s) ∧
  ∀ (s : State) (w : Word) (rest : List Word), s.cmdq = w :: rest →
    ∃ n r, chosenTurn (after n s) = .cmd ∧ (∃ more, (after n s).cmdq = w :: more) ∧
      (after (n + 1) s).rsp = (after n s).rsp ++ [r] ∧ r.op = w.extractLsb' 24 8

/-- A step never changes `Cfg` and never removes or alters a record of `EVT` (R20, R51, R66). -/
def Obligations.EventsOnlyAppend : Prop :=
  ∀ s t : State, step s = .next t → t.cfg = s.cfg ∧ s.evt <+: t.evt ∧ t.evt = s.evt ++ newEvents s t

/-- A slot that is open before and after a step keeps its descriptor, `MISMATCH` and `ERRCODE`; a step of `PIPE` opens and
closes no slot and touches none of `P`, `CTRL`, `CMDQ`, `RSP`, `RUN`, `SCAN`, `SRC_FAIL`, `MISSED`
(R21, R33, R40, R42). -/
def Obligations.DescriptorImmutable : Prop :=
  (∀ (s t : State) (id : Fin 64) (x y : Session), step s = .next t → slot s id = some x → slot t id = some y →
    y.desc = x.desc ∧ y.mismatch = x.mismatch ∧ y.errcode = x.errcode) ∧
  (∀ s : State, openIds (pipeStep s) = openIds s ∧ (pipeStep s).p = s.p ∧ (pipeStep s).ctrl = s.ctrl ∧
    (pipeStep s).cmdq = s.cmdq ∧ (pipeStep s).rsp = s.rsp ∧ (pipeStep s).flags.run = s.flags.run ∧
    (pipeStep s).flags.scan = s.flags.scan ∧ (pipeStep s).flags.srcFail = s.flags.srcFail ∧
    (pipeStep s).cnt.missed = s.cnt.missed)

/-- Every change of `SYNC_STATE` is a row of the table of R177, with its cause; no other exists. -/
def Obligations.SyncTransitions : Prop :=
  ∀ s t : State, step s = .next t → t.sync ≠ s.sync →
    (chosenTurn s = .pipe ∧ s.flags.run = true ∧
      ((s.sync = .unsynchronized ∧ t.sync = .acquiringNull) ∨
       (s.sync = .acquiringNull ∧ t.sync = .acquiringPhaseReference ∧
         ∃ w rest, s.rb = w :: rest ∧ nullEnds s.cfg (searchSense s.cfg w s.det) = true) ∨
       (s.sync = .acquiringPhaseReference ∧ t.sync = .synchronized ∧
         qualityOk s.cfg (acquireSpectrum s) = true) ∨
       (s.sync = .acquiringPhaseReference ∧ t.sync = .acquiringNull ∧
         qualityOk s.cfg (acquireSpectrum s) = false) ∨
       (s.sync = .synchronized ∧ t.sync = .unsynchronized ∧ s.sym.symIdx = 1 ∧
         qualityOk s.cfg (trackSpectrum s) = false ∧ s.cfg.nLoss ≤ t.cnt.badFrames.toNat))) ∨
    (chosenTurn s = .cmd ∧ t.sync = .unsynchronized ∧
      ∃ w rest b, s.cmdq = w :: rest ∧ decode w = .command (.restart b)) ∨
    (chosenTurn s = .fail ∧ t.sync = .unsynchronized ∧ s.flags.srcFail = false)

/-- `Synchronized` is entered, and `EV_FREQ_CORR` is raised, only by a phase-reference step whose window passes the
quality test (R148 b). -/
def Obligations.OnlyQualitySynchronizes : Prop :=
  ∀ s t : State, step s = .next t →
    (s.sync ≠ .synchronized → t.sync = .synchronized →
      chosenTurn s = .pipe ∧ s.sync = .acquiringPhaseReference ∧ acquireLen s.cfg ≤ s.rb.length ∧
      qualityOk s.cfg (acquireSpectrum s) = true) ∧
    (withCode 0x02 (newEvents s t) ≠ [] →
      chosenTurn s = .pipe ∧
      ((s.sync = .acquiringPhaseReference ∧ qualityOk s.cfg (acquireSpectrum s) = true) ∨
       (s.sync = .synchronized ∧ s.sym.symIdx = 1 ∧ qualityOk s.cfg (trackSpectrum s) = true)))

/-- `EV_SYNC_STATE(v)` is raised exactly when `SYNC_STATE` takes another value `v`, once, with `v` in bits 1:0 (R178). -/
def Obligations.SyncEventOnChange : Prop :=
  ∀ s t : State, step s = .next t →
    withCode 0x01 (newEvents s t) = if t.sync = s.sync then [] else [⟨0x01, 0, [t.sync.code.setWidth 32]⟩]

/-- `EV_PRESENCE(b)` is raised once when `PRESENCE` changes to `b`; without a change it is raised only by a null-search
timeout, with value 0, and every timeout raises it (R25, R147, R179). -/
def Obligations.PresenceEvents : Prop :=
  ∀ s t : State, step s = .next t →
    (t.flags.presence ≠ s.flags.presence →
      withCode 0x04 (newEvents s t) = [⟨0x04, 0, [BitVec.ofNat 32 (bitNat t.flags.presence)]⟩]) ∧
    (t.flags.presence = s.flags.presence → withCode 0x04 (newEvents s t) ≠ [] →
      withCode 0x04 (newEvents s t) = [⟨0x04, 0, [0]⟩] ∧ t.flags.presence = false ∧ chosenTurn s = .pipe ∧
      s.sync = .acquiringNull ∧ t.sync = .acquiringNull ∧ s.cfg.nullTimeout ≤ (s.det.nsCount + 1).toNat) ∧
    (∀ w rest, chosenTurn s = .pipe → s.flags.run = true → s.sync = .acquiringNull → s.rb = w :: rest →
      nullEnds s.cfg (searchSense s.cfg w s.det) = false → s.cfg.nullTimeout ≤ (s.det.nsCount + 1).toNat →
      newEvents s t = [⟨0x04, 0, [0]⟩] ∧ t.det.nsCount = 0)

/-- A search on silence never leaves `AcquiringNull`: each step of `PIPE` consumes one zero sample and stays silent, and the
only record is `EV_PRESENCE(0)` on the sample that brings the count to `NULL_TIMEOUT` (R148 a). -/
def Obligations.SilentSearch : Prop :=
  ∀ s : State, s.Silent →
    (pipeStep s).Silent ∧ (pipeStep s).rb = s.rb.drop 1 ∧
    newEvents s (pipeStep s) =
      (if s.rb ≠ [] ∧ s.cfg.nullTimeout ≤ (s.det.nsCount + 1).toNat then [⟨0x04, 0, [0]⟩] else []) ∧
    (pipeStep s).det.nsCount =
      (if s.rb = [] then s.det.nsCount
       else if s.cfg.nullTimeout ≤ (s.det.nsCount + 1).toNat then 0 else s.det.nsCount + 1)

/-! ### Invariants that every step keeps -/

/-- The null detector stays what R45, R141 and R142 say. -/
def Obligations.DetectorInvariantKept : Prop := Kept fun s => s.cfg.WellFormed ∧ s.DetectorOk

/-- Open sessions stay disjoint, inside the CIF and consistent, whatever commands and frames arrive (R44, R42). -/
def Obligations.SessionTableInvariantKept : Prop := Kept State.SlotsOk

/-- The frame position stays legal and the symbol buffers hold exactly the symbols demodulated so far (R22, R47). -/
def Obligations.FrameInvariantKept : Prop := Kept fun s => s.cfg.WellFormed ∧ s.FrameOk

/-- `FINE`, `BAD_FRAMES`, `PRS_FAILS` and `RB` stay within the bounds of R32, R35 and R61. -/
def Obligations.RegisterBoundsKept : Prop := Kept fun s => s.cfg.WellFormed ∧ s.BoundsOk

/-- Every soft bit stays in `[-127, 127]` (R69). -/
def Obligations.SoftBitRangeKept : Prop := Kept State.SoftsOk

/-- Hardware reset: every item has the value of R53, and the five invariants hold, for every legal configuration and for
`State.reset`. -/
def Obligations.ResetMeetsInvariants : Prop :=
  (∀ c : Cfg, c.WellFormed → (State.resetWith c).DetectorOk ∧ (State.resetWith c).SlotsOk ∧
    (State.resetWith c).FrameOk ∧ (State.resetWith c).BoundsOk ∧ (State.resetWith c).SoftsOk) ∧
  State.reset.DetectorOk ∧ State.reset.SlotsOk ∧ State.reset.FrameOk ∧ State.reset.BoundsOk ∧ State.reset.SoftsOk ∧
  State.reset.p = Vector.replicate 8 0 ∧ State.reset.ctrl = ⟨false, false, false, false⟩ ∧
  State.reset.flags = ⟨false, false, false, false⟩ ∧ State.reset.sync = .unsynchronized ∧
  State.reset.sym = ⟨1, [], [], [], 0⟩ ∧ State.reset.freq = ⟨0, 0, 0, 0, 0⟩ ∧
  State.reset.cnt = ⟨0, 0, 0, 0, 0, 0, 0⟩ ∧ State.reset.det = ⟨List.replicate 64 0, 0, 0, 0, 0, .seekDip, 0, 0⟩ ∧
  (∀ id, slot State.reset id = none) ∧ State.reset.rb = [] ∧ State.reset.cmdq = [] ∧ State.reset.rsp = [] ∧
  State.reset.evt = [] ∧ readCsr State.reset 0x02 = some 0x00000100

/-! ### Correlator and frequency estimator -/

/-- `shat` is the shift with the largest `M(s)`; among equal maxima the smallest `s` wins (R155). -/
def Obligations.ArgmaxSmallestShift : Prop :=
  ∀ (c : Cfg) (y : List CInt),
    let M := fun s : Int => (correlation c y s).norm2
    shat c y ≤ c.sMax ∧ -(c.sMax : Int) ≤ shat c y ∧
    ∀ s : Int, -(c.sMax : Int) ≤ s → s ≤ c.sMax → M s ≤ M (shat c y) ∧ (s < shat c y → M s < M (shat c y))

/-- An all-zero FFT output fails the quality test, with `M(s) = 0` at every shift and the smallest shift chosen
(R155, R156). -/
def Obligations.ZeroSpectrumFails : Prop :=
  ∀ (c : Cfg) (y : List CInt), (∀ z ∈ y, z = ⟨0, 0⟩) →
    (∀ s : Int, correlation c y s = ⟨0, 0⟩) ∧ shat c y = -(c.sMax : Int) ∧ qualityOk c y = false

/-- If the received symbol is the reference with amplitude `A` on every carrier and sits `s0` bins off, then
`C(s0) = ((K - 2) * A^2, 0)` (R154). -/
def Obligations.IdealReferencePeak : Prop :=
  ∀ (c : Cfg) (y : List CInt) (A s0 : Int), c.carriers % 2 = 0 → 2 ≤ c.carriers →
    (∀ k ∈ carrierList c.carriers, binAt c y (k + s0) = CInt.mul ⟨A, 0⟩ (jpow (prsq c k))) →
    correlation c y s0 = ⟨((c.carriers : Int) - 2) * A ^ 2, 0⟩

/-- The carry: `FINE` is brought into `[-32768, 32768]`, `COARSE * 65536 + FINE` is unchanged, a `FINE` in range is left
alone, and the rotator's increment is unchanged (R163). -/
def Obligations.CarryKeepsTotal : Prop :=
  ∀ (coarse : Word) (fine : Int), -65536 ≤ fine → fine ≤ 65536 →
    let r := carry coarse fine
    r.2 ≤ 32768 ∧ -32768 ≤ r.2 ∧ (r.1 - coarse).toInt * 65536 + r.2 = fine ∧
    (-32768 ≤ fine → fine ≤ 32768 → r = (coarse, fine)) ∧
    (32768 < fine → r = (coarse + 1, fine - 65536)) ∧ (fine < -32768 → r = (coarse - 1, fine + 65536)) ∧
    ∀ (c : Cfg) (ph lc lf : Word), c.log2Tu ≤ 16 →
      dphi c ⟨r.1, BitVec.ofInt 32 r.2, ph, lc, lf⟩ = dphi c ⟨coarse, BitVec.ofInt 32 fine, ph, lc, lf⟩

/-- One frequency update: the total correction moves by `shat` carrier spacings plus `tdiv(LOOP_NUM * eps, LOOP_DEN)`, `FINE`
ends in range, and the phase and the reported pair are untouched (R158, R162, R163). -/
def Obligations.FrequencyLoop : Prop :=
  ∀ (c : Cfg) (sh : Int) (gamma : CInt) (f : Corrector), 0 < c.loopNum → c.loopNum ≤ c.loopDen →
    -32768 ≤ f.fine.toInt → f.fine.toInt ≤ 32768 →
    let g := freqUpdate c sh gamma f
    g.fine.toInt ≤ 32768 ∧ -32768 ≤ g.fine.toInt ∧
    (g.coarse - (f.coarse + BitVec.ofInt 32 sh)).toInt * 65536 + g.fine.toInt =
      f.fine.toInt + Int.tdiv ((c.loopNum : Int) * arg16 c gamma) (c.loopDen : Int) ∧
    g.phase = f.phase ∧ g.lastCoarse = f.lastCoarse ∧ g.lastFine = f.lastFine

/-- `EV_FREQ_CORR(FINE, COARSE)` is raised exactly when the pair differs from the pair last reported, which it then becomes
(R164). -/
def Obligations.FreqReportOnChange : Prop :=
  ∀ s : State,
    freqReport s =
      if (s.freq.coarse, s.freq.fine) = (s.freq.lastCoarse, s.freq.lastFine) then s
      else { s with
        freq := { s.freq with lastCoarse := s.freq.coarse, lastFine := s.freq.fine }
        evt := s.evt ++ [⟨0x02, 0, [s.freq.fine, s.freq.coarse]⟩] }

/-- The rotator: sample `i` of a step is rotated by `PHASE + i * DPHI`, `PHASE` ends at the phase after the last one; while
`COARSE = FINE = PHASE = 0` it changes nothing; with `FINE = 0` the phase turns by whole turns over `T_U`
samples (R151, R184). -/
def Obligations.PhaseAccumulator : Prop :=
  ∀ (n : Nat) (s : State), n ≤ s.rb.length →
    (consume n s).freq.phase = s.freq.phase + BitVec.ofNat 32 n * dphi s.cfg s.freq ∧
    (consumedRot n s).length = n ∧
    (∀ (i : Nat) (w : Word), i < n → s.rb[i]? = some w →
      (consumedRot n s)[i]? = some (rot s.cfg (sample w) (s.freq.phase + BitVec.ofNat 32 i * dphi s.cfg s.freq))) ∧
    (s.freq.coarse = 0 → s.freq.fine = 0 → s.freq.phase = 0 →
      consumedRot n s = (s.rb.take n).map sample ∧ (consume n s).freq.phase = 0) ∧
    (s.freq.fine = 0 → s.cfg.log2Tu ≤ 16 → BitVec.ofNat 32 s.cfg.tU * dphi s.cfg s.freq = 0)

/-! ### Demodulator and frames -/

/-- `softpair`: the two magnitudes add up to at most 127; a positive axis value gives a soft bit that is not positive and a
negative one a soft bit that is not negative; on each of the four half-axes the other soft bit is 0 and this one
full; `(0, 0)` gives no information (R187). -/
def Obligations.SoftpairRange : Prop :=
  ∀ r : CInt,
    (softpair r).1.natAbs + (softpair r).2.natAbs ≤ 127 ∧
    (0 ≤ r.re → (softpair r).1 ≤ 0) ∧ (r.re ≤ 0 → 0 ≤ (softpair r).1) ∧
    (0 ≤ r.im → (softpair r).2 ≤ 0) ∧ (r.im ≤ 0 → 0 ≤ (softpair r).2) ∧
    (0 < r.re → r.im = 0 → softpair r = (-127, 0)) ∧ (r.re < 0 → r.im = 0 → softpair r = (127, 0)) ∧
    (r.re = 0 → 0 < r.im → softpair r = (0, -127)) ∧ (r.re = 0 → r.im < 0 → softpair r = (0, 127)) ∧
    (r = ⟨0, 0⟩ → softpair r = (0, 0))

/-- A data-symbol step that is not the last of its frame: one symbol of samples is consumed, the soft bits go to the
buffer of the symbol's kind in the order of R189, `YPREV` takes the new output, `SYM_IDX` advances by one, no
record is raised and nothing else changes but the detector and the phase (R189, R190, R191). -/
def Obligations.SymbolStepAdvances : Prop :=
  ∀ s : State, s.flags.run = true → s.sync = .synchronized → 2 ≤ s.sym.symIdx.toNat →
    s.sym.symIdx.toNat < s.cfg.symbols → s.cfg.symbols ≤ 255 → s.cfg.tS ≤ s.rb.length →
    ∃ y soft, y = fft s.cfg ((consumedRot s.cfg.tS s).drop s.cfg.tG) ∧
      soft.length = 2 * s.cfg.fmap.length ∧
      (∀ (i : Nat) (k : Int), s.cfg.fmap[i]? = some k →
        soft[i]? = some (softpair ((binAt s.cfg y k).mulConj (binAt s.cfg s.sym.yprev k))).1 ∧
        soft[s.cfg.fmap.length + i]? = some (softpair ((binAt s.cfg y k).mulConj (binAt s.cfg s.sym.yprev k))).2) ∧
      pipeStep s = { s with
        rb := s.rb.drop s.cfg.tS
        det := senseAll s.cfg (s.rb.take s.cfg.tS) s.det
        freq := { s.freq with phase := (consume s.cfg.tS s).freq.phase }
        sym := { s.sym with
          symIdx := s.sym.symIdx + 1
          yprev := y
          ficbuf := if s.sym.symIdx.toNat ≤ 1 + s.cfg.ficSyms then s.sym.ficbuf ++ soft else s.sym.ficbuf
          mscbuf := if s.sym.symIdx.toNat ≤ 1 + s.cfg.ficSyms then s.sym.mscbuf else s.sym.mscbuf ++ soft } }

/-- What every completed frame produces, whatever the samples were: one `EV_FIC_CRC` per block, an `EV_FIB` for each that
passed, the counters to match, then the sessions' records, then the constellation if enabled; the next frame
starts at symbol 1 with empty buffers (R193, R194, R231, R232). -/
def Obligations.FrameCompletion : Prop :=
  ∀ s : State, s.flags.run = true → s.sync = .synchronized → 2 ≤ s.sym.symIdx.toNat →
    s.sym.symIdx.toNat = s.cfg.symbols → s.cfg.tS ≤ s.rb.length →
    ∃ t fic msc cst, t = pipeStep s ∧ newEvents s t = fic ++ msc ++ cst ∧
      (withCode 0x09 fic).length = s.cfg.ficBlocks * s.cfg.fibsPerBlock ∧
      (∀ e ∈ fic, e.code = 0x09 ∨ e.code = 0x0A) ∧
      (∀ e ∈ msc, 0x0B ≤ e.code.toNat ∧ e.code.toNat ≤ 0x0F) ∧
      cst.length = (if s.ctrl.enConst then 1 else 0) ∧ (∀ e ∈ cst, e.code = 0x06) ∧
      t.cnt.ficOk = s.cnt.ficOk + BitVec.ofNat 32 (withCode 0x0A fic).length ∧
      t.cnt.ficOk + t.cnt.ficFail =
        s.cnt.ficOk + s.cnt.ficFail + BitVec.ofNat 32 (s.cfg.ficBlocks * s.cfg.fibsPerBlock) ∧
      t.cnt.cifCnt = s.cnt.cifCnt + BitVec.ofNat 32 s.cfg.cifsPerFrame ∧ t.cnt.frameCnt = s.cnt.frameCnt + 1 ∧
      t.cnt.missed = s.cnt.missed ∧ t.cnt.badFrames = s.cnt.badFrames ∧ t.cnt.prsFails = s.cnt.prsFails ∧
      t.sync = .synchronized ∧ t.flags = s.flags ∧ t.sym.symIdx = 1 ∧ t.sym.ficbuf = [] ∧ t.sym.mscbuf = []

/-- The four `CTRL` enables change nothing but the four optional records: with any other `CTRL`, a step of `PIPE` leaves every
state variable and every other record the same (R334). -/
def Obligations.EnablesInert : Prop :=
  ∀ (s : State) (k : Ctrl),
    let t := pipeStep s
    let u := pipeStep { s with ctrl := k }
    { u with ctrl := t.ctrl, evt := [] } = { t with evt := [] } ∧ mandatory u.evt = mandatory t.evt ∧ u.ctrl = k

/-! ### The agents outside the core, and holding -/

/-- The steps of `SRC`: push while `RB` has room, miss, fail, each with its whole effect; after a failure none of them is
enabled (R63, R64, R318, R319). -/
def Obligations.SourceSteps : Prop :=
  ∀ s : State,
    (s.flags.srcFail = false →
      (∀ w, s.rb.length < s.cfg.rbDepth → srcPush w s = { s with rb := s.rb ++ [w] }) ∧
      (∀ w, s.cfg.rbDepth ≤ s.rb.length → srcPush w s = s) ∧
      (∀ m, 1 ≤ m → srcMiss m s = { s with cnt := { s.cnt with missed := s.cnt.missed + BitVec.ofNat 32 m } }) ∧
      srcFailStep s = { s with
        flags := ⟨false, s.flags.scan, true, false⟩
        sync := .unsynchronized
        sym := { s.sym with symIdx := 1 }
        evt := s.evt ++ [⟨0x10, 0, [0x00000101]⟩] ++
          (if s.sync = .unsynchronized then [] else [⟨0x01, 0, [0]⟩]) ++
          (if s.flags.presence then [⟨0x04, 0, [0]⟩] else []) }) ∧
    (s.flags.srcFail = true → srcFailStep s = s ∧ (∀ w, srcPush w s = s) ∧ (∀ m, srcMiss m s = s))

/-- While `RUN = 0` `PIPE` holds; a `RESTART` command sets `RUN` and nothing else does; until then no sample leaves `RB`, and
`RESTART` discards them all (R170). -/
def Obligations.StartOnlyByRestart : Prop :=
  ∀ s t : State, s.flags.run = false → step s = .next t →
    pipeStep s = s ∧
    ((t.flags.run = false ∧ s.rb <+: t.rb) ∨
     (t.flags.run = true ∧ t.rb = [] ∧ chosenTurn s = .cmd ∧
       ∃ w rest b, s.cmdq = w :: rest ∧ decode w = .command (.restart b))) ∧
    (∀ w rest b, chosenTurn s = .cmd → s.cmdq = w :: rest → decode w = .command (.restart b) → t.flags.run = true)

/-- With `RUN = 1` and the frame position legal, `PIPE`'s step consumes exactly the samples of the table of R22, the oldest
ones, and holds while `RB` has fewer (R22, R62). -/
def Obligations.PipeTakesTableSamples : Prop :=
  ∀ s : State, s.flags.run = true →
    (s.sync = .synchronized → 1 ≤ s.sym.symIdx.toNat ∧ s.sym.symIdx.toNat ≤ s.cfg.symbols) →
    (samplesNeeded s ≤ s.rb.length → (pipeStep s).rb = s.rb.drop (samplesNeeded s)) ∧
    (s.rb.length < samplesNeeded s → pipeStep s = s)

/-! ### The decoders -/

/-- A block with a valid CRC of which one bit is inverted fails the CRC: it raises no `EV_FIB`, counts as failed, and
leaves the one record `EV_FIC_CRC(0, idx)` (R231, R233). -/
def Obligations.CrcCatchesSingleBit : Prop :=
  ∀ (fib : List Byte) (i : Fin 32) (b : Fin 8) (idx : Nat) (s : State), fib.length = 32 → crc16Ok fib = true →
    let bad := fib.set i.val (fib.getD i.val 0 ^^^ (1#8 <<< b.val))
    crc16Ok bad = false ∧
    fibReport idx bad s = { s with
      cnt := { s.cnt with ficFail := s.cnt.ficFail + 1 }
      evt := s.evt ++ [⟨0x09, 0, [BitVec.ofNat 32 (256 * (idx % 256))]⟩] }

/-- The Viterbi decoder maximises: its word's mother codeword has the total `viterbiMetric`, and no word has a larger one,
for every soft vector of the right length and every legal constraint length and tap sets (R216 to R219, R222). -/
def Obligations.ViterbiMaximises : Prop :=
  ∀ (c : Cfg) (m : List Soft) (n : Nat), c.CodeOk → m.length = 4 * (n + c.kconv - 1) →
    (viterbi c m n).length = n ∧
    ∃ best, viterbiMetric c m n = some best ∧ pathTotal (convEncode c (viterbi c m n)) m = best ∧
      ∀ a : List Bool, a.length = n → pathTotal (convEncode c a) m ≤ best

/-- No information decodes to zeros: every comparison ties and every tie selects `p0` (R218, R220 a). -/
def Obligations.ViterbiSilence : Prop :=
  ∀ (c : Cfg) (n : Nat), c.CodeOk →
    viterbi c (List.replicate (4 * (n + c.kconv - 1)) 0) n = List.replicate n false ∧
    viterbiMetric c (List.replicate (4 * (n + c.kconv - 1)) 0) n = some 0

/-- The de-puncturer inverts the puncturing: the result has the mother length, puncturing it gives the input back, every
deleted position is 0, and the mask keeps `NPUNCT` positions (R213, R215). -/
def Obligations.DepunctureInverts : Prop :=
  ∀ (c : Cfg) (segs : List Segment) (p : List Soft), c.CodeOk → (∀ g ∈ segs, 1 ≤ g.pi ∧ g.pi ≤ 24) →
    p.length = (segs.map fun g => g.len * 4 * (8 + g.pi)).sum + c.piTail.count true →
    (depuncture c p segs).length = 128 * (segs.map (·.len)).sum + 4 * (c.kconv - 1) ∧
    puncture (keepMask c segs) (depuncture c p segs) = p ∧
    (∀ t : Nat, (keepMask c segs)[t]? = some false → (depuncture c p segs)[t]? = some 0) ∧
    (keepMask c segs).count true = p.length

/-! ### Sessions -/

/-- The order of service within a CIF cannot change any session's output: serving the same slots in any two orders gives
the same session table and, for every session, the same records in the same order; the order the machine takes
is an order of exactly the open slots, the model's free choice among them (R79, R241, R242; log 7). -/
def Obligations.ServingOrderIrrelevant : Prop :=
  (∀ (cif : List Soft) (s : State) (o1 o2 : List (Fin 64)), o1.Perm o2 → o1.Nodup →
    let t1 := o1.foldl (serveSession cif) s
    let t2 := o2.foldl (serveSession cif) s
    t1.sess = t2.sess ∧ (∀ id, ofSession id (newEvents s t1) = ofSession id (newEvents s t2)) ∧
    { t1 with sess := s.sess, evt := s.evt } = s) ∧
  (∀ (n : Nat) (s : State), (serveOrder n (openIds s)).Perm (openIds s) ∧ (openIds s).Nodup)

/-- The number and kind of the records per CIF and session, whatever the soft bits were (R246, R254, R256, R258, R260). -/
def Obligations.SessionEventCounts : Prop :=
  ∀ (c : Cfg) (id : Fin 64) (v : List Soft) (x : Session),
    let r := sessionCif c id v x
    let full := x.desc.tdiEn = false ∨ 15 ≤ x.tdiCnt.toNat
    (∀ e ∈ r.2, e.sub = subField id) ∧ r.1.desc = x.desc ∧
    (x.mismatch = true → r = (x, [⟨0x0F, subField id, [x.errcode.setWidth 32]⟩])) ∧
    (x.mismatch = false → ¬ full → r.2 = []) ∧
    (x.mismatch = false → full → x.desc.type = 0 → r.2.map (·.code) = [0x0B]) ∧
    (x.mismatch = false → full → x.desc.type = 1 → r.2.map (·.code) = [0x0D, 0x0B]) ∧
    (x.mismatch = false → full → x.desc.type = 2 → x.sfFill ≠ 4 → r.2 = [] ∧ r.1.sfFill = x.sfFill + 1) ∧
    (x.mismatch = false → full → x.desc.type = 2 → x.sfFill = 4 →
      (r.2.map (·.code) = [0x0C, 0x0D, 0x0E] ∧ r.1.sfFill = 0 ∧ r.1.sfBuf = []) ∨
      (r.2.map (·.code) = [0x0C, 0x0D] ∧ r.1.sfFill = 4 ∧ r.1.sfBuf.length = x.sfBuf.length))

/-- The time de-interleaver inverts the transmitter's delays. If bit `i` of CIF `n` was sent `M[i mod 16]` CIFs later, then
a session whose de-interleaver was empty holds, after pushing the vectors of CIFs 0 to `n`, the newest 16 of them,
newest first, and their number; it yields nothing for the first 15 CIFs and the vector of CIF `n - 15` from then on
(R244). -/
def Obligations.TdiInvertsInterleaver : Prop :=
  ∀ (x : Session) (v sent : Nat → List Soft), x.tdiH = [] → x.tdiCnt = 0 →
    (∀ n, (v n).length = x.desc.nsoft) →
    (∀ n i, i < x.desc.nsoft → tdiDelay (i % 16) ≤ n →
      (sent n).getD i 0 = (v (n - tdiDelay (i % 16))).getD i 0) →
    ∀ n,
      let y := (List.range (n + 1)).foldl (fun z k => tdiPush (sent k) z) x
      y = { x with tdiH := y.tdiH, tdiCnt := y.tdiCnt } ∧
      y.tdiH = ((List.range (n + 1)).map fun j => sent (n - j)).take 16 ∧ y.tdiCnt.toNat = min (n + 1) 16 ∧
      (n < 15 → tdiResult y = none) ∧ (15 ≤ n → tdiResult y = some (v (n - 15)))

/-- The sequence of the descrambler: five zeros and four ones, then each bit the sum of the bits nine and five places
before, so the register started with nine ones; its period is 511 and no shorter. Descrambling adds it to the
vector from its first bit on, keeps the length and is its own inverse (R271, R272). -/
def Obligations.DescramblerSequence : Prop :=
  let bit := fun n i => (prbsFrom prbsStart n).getD i false
  (∀ i n, i < n → i < 9 → bit n i = decide (5 ≤ i)) ∧
  (∀ i n, i < n → 9 ≤ i → bit n i = (bit n (i - 9) ^^ bit n (i - 5))) ∧
  (∀ i n, i < n → bit (n + 511) (i + 511) = bit n i) ∧
  (∀ p, 0 < p → p < 511 → ∃ i, i < 511 ∧ bit 1022 (i + p) ≠ bit 1022 i) ∧
  (∀ (u : List Bool) (i : Nat), i < u.length →
    (descramble u).getD i false = (u.getD i false ^^ bit u.length i)) ∧
  (∀ u : List Bool, descramble (descramble u) = u ∧ (descramble u).length = u.length)

/-- The decoding contract: if a code word differs from the received word in at most five of the 120 positions, the decoder
returns its data, that number and true; else it returns the received data, 0 and false (R289). -/
def Obligations.RsDecodeContract : Prop :=
  ∀ r : List Byte, r.length = 120 →
    (∀ w : List Byte, isCodeWord w = true → distance r w ≤ 5 → rsDecode r = (w.take 110, distance r w, true)) ∧
    ((∃ w : List Byte, isCodeWord w = true ∧ distance r w ≤ 5) ∨ rsDecode r = (r.take 110, 0, false))

/-- A superframe attempt: the two counts are raised in order whatever the bytes were; the superframe follows exactly when the
Firecode of the corrected bytes passes, and then the buffer is empty, else one frame is dropped; the audio
superframe takes byte `j + k * RS_S` from byte `k` of code word `j` (R295, R297, R300, R303, R304, R305). -/
def Obligations.SuperframeAttempt : Prop :=
  ∀ (id : Fin 64) (x : Session),
    let n := x.desc.rsS
    let rs := (List.range n).map fun j => rsDecode (rsWord n x.sfBuf.flatten j)
    ∃ au counts, au.length = 110 * n ∧
      counts = [⟨0x0C, subField id, [BitVec.ofNat 32 (((rs.filter fun r => r.2.2).map fun r => r.2.1).sum),
          BitVec.ofNat 32 (rs.filter fun r => !r.2.2).length]⟩,
        ⟨0x0D, subField id, [if firecodeOk (au.take 11) then 0 else 1]⟩] ∧
      (∀ j k, j < n → k < 110 → ∃ d, rs[j]? = some d ∧ au.getD (j + k * n) 0 = d.1.getD k 0) ∧
      (∀ j k, j < n → k < 120 → (rsWord n x.sfBuf.flatten j).getD k 0 = x.sfBuf.flatten.getD (j + k * n) 0) ∧
      (firecodeOk (au.take 11) = true →
        sfAttempt id x = ({ x with sfBuf := [], sfFill := 0 }, counts ++ [⟨0x0E, subField id, bytePayload au⟩])) ∧
      (firecodeOk (au.take 11) = false → sfAttempt id x = ({ x with sfBuf := x.sfBuf.drop 1, sfFill := 4 }, counts))
end

