-- ==== Sys2Proof/Laws/State.lean ====
section
/-! SUPPORT. One lemma per field per update of the state, true by `rfl`, so that no later proof unfolds a
record update. -/

namespace Sys2Proof.Machine

variable (s : State)

/-! ### `raise` -/

@[simp] theorem raise_cfg (e : Event) : (raise e s).cfg = s.cfg := rfl
@[simp] theorem raise_p (e : Event) : (raise e s).p = s.p := rfl
@[simp] theorem raise_ctrl (e : Event) : (raise e s).ctrl = s.ctrl := rfl
@[simp] theorem raise_flags (e : Event) : (raise e s).flags = s.flags := rfl
@[simp] theorem raise_sync (e : Event) : (raise e s).sync = s.sync := rfl
@[simp] theorem raise_cnt (e : Event) : (raise e s).cnt = s.cnt := rfl
@[simp] theorem raise_det (e : Event) : (raise e s).det = s.det := rfl
@[simp] theorem raise_freq (e : Event) : (raise e s).freq = s.freq := rfl
@[simp] theorem raise_sym (e : Event) : (raise e s).sym = s.sym := rfl
@[simp] theorem raise_sess (e : Event) : (raise e s).sess = s.sess := rfl
@[simp] theorem raise_rb (e : Event) : (raise e s).rb = s.rb := rfl
@[simp] theorem raise_cmdq (e : Event) : (raise e s).cmdq = s.cmdq := rfl
@[simp] theorem raise_rsp (e : Event) : (raise e s).rsp = s.rsp := rfl
@[simp] theorem raise_evt (e : Event) : (raise e s).evt = s.evt ++ [e] := rfl
@[simp] theorem raise_turns (e : Event) : (raise e s).turns = s.turns := rfl
@[simp] theorem raise_tick (e : Event) : (raise e s).tick = s.tick := rfl
@[simp] theorem raise_draws (e : Event) : (raise e s).draws = s.draws := rfl

/-! ### `raiseAll` -/

@[simp] theorem raiseAll_cfg (es : List Event) : (raiseAll es s).cfg = s.cfg := rfl
@[simp] theorem raiseAll_p (es : List Event) : (raiseAll es s).p = s.p := rfl
@[simp] theorem raiseAll_ctrl (es : List Event) : (raiseAll es s).ctrl = s.ctrl := rfl
@[simp] theorem raiseAll_flags (es : List Event) : (raiseAll es s).flags = s.flags := rfl
@[simp] theorem raiseAll_sync (es : List Event) : (raiseAll es s).sync = s.sync := rfl
@[simp] theorem raiseAll_cnt (es : List Event) : (raiseAll es s).cnt = s.cnt := rfl
@[simp] theorem raiseAll_det (es : List Event) : (raiseAll es s).det = s.det := rfl
@[simp] theorem raiseAll_freq (es : List Event) : (raiseAll es s).freq = s.freq := rfl
@[simp] theorem raiseAll_sym (es : List Event) : (raiseAll es s).sym = s.sym := rfl
@[simp] theorem raiseAll_sess (es : List Event) : (raiseAll es s).sess = s.sess := rfl
@[simp] theorem raiseAll_rb (es : List Event) : (raiseAll es s).rb = s.rb := rfl
@[simp] theorem raiseAll_cmdq (es : List Event) : (raiseAll es s).cmdq = s.cmdq := rfl
@[simp] theorem raiseAll_rsp (es : List Event) : (raiseAll es s).rsp = s.rsp := rfl
@[simp] theorem raiseAll_evt (es : List Event) : (raiseAll es s).evt = s.evt ++ es := rfl
@[simp] theorem raiseAll_turns (es : List Event) : (raiseAll es s).turns = s.turns := rfl
@[simp] theorem raiseAll_tick (es : List Event) : (raiseAll es s).tick = s.tick := rfl
@[simp] theorem raiseAll_draws (es : List Event) : (raiseAll es s).draws = s.draws := rfl

/-! ### `respond` -/

@[simp] theorem respond_cfg (op st : BitVec 8) (d : Word) : (respond op st d s).cfg = s.cfg := rfl
@[simp] theorem respond_p (op st : BitVec 8) (d : Word) : (respond op st d s).p = s.p := rfl
@[simp] theorem respond_ctrl (op st : BitVec 8) (d : Word) : (respond op st d s).ctrl = s.ctrl := rfl
@[simp] theorem respond_flags (op st : BitVec 8) (d : Word) : (respond op st d s).flags = s.flags := rfl
@[simp] theorem respond_sync (op st : BitVec 8) (d : Word) : (respond op st d s).sync = s.sync := rfl
@[simp] theorem respond_cnt (op st : BitVec 8) (d : Word) : (respond op st d s).cnt = s.cnt := rfl
@[simp] theorem respond_det (op st : BitVec 8) (d : Word) : (respond op st d s).det = s.det := rfl
@[simp] theorem respond_freq (op st : BitVec 8) (d : Word) : (respond op st d s).freq = s.freq := rfl
@[simp] theorem respond_sym (op st : BitVec 8) (d : Word) : (respond op st d s).sym = s.sym := rfl
@[simp] theorem respond_sess (op st : BitVec 8) (d : Word) : (respond op st d s).sess = s.sess := rfl
@[simp] theorem respond_rb (op st : BitVec 8) (d : Word) : (respond op st d s).rb = s.rb := rfl
@[simp] theorem respond_cmdq (op st : BitVec 8) (d : Word) : (respond op st d s).cmdq = s.cmdq := rfl
@[simp] theorem respond_rsp (op st : BitVec 8) (d : Word) : (respond op st d s).rsp = s.rsp ++ [⟨op, st, d⟩] := rfl
@[simp] theorem respond_evt (op st : BitVec 8) (d : Word) : (respond op st d s).evt = s.evt := rfl
@[simp] theorem respond_turns (op st : BitVec 8) (d : Word) : (respond op st d s).turns = s.turns := rfl
@[simp] theorem respond_tick (op st : BitVec 8) (d : Word) : (respond op st d s).tick = s.tick := rfl
@[simp] theorem respond_draws (op st : BitVec 8) (d : Word) : (respond op st d s).draws = s.draws := rfl

/-! ### `refuse` -/

@[simp] theorem refuse_cfg (op st : BitVec 8) (d : Word) : (refuse op st d s).cfg = s.cfg := rfl
@[simp] theorem refuse_p (op st : BitVec 8) (d : Word) : (refuse op st d s).p = s.p := rfl
@[simp] theorem refuse_ctrl (op st : BitVec 8) (d : Word) : (refuse op st d s).ctrl = s.ctrl := rfl
@[simp] theorem refuse_flags (op st : BitVec 8) (d : Word) : (refuse op st d s).flags = s.flags := rfl
@[simp] theorem refuse_sync (op st : BitVec 8) (d : Word) : (refuse op st d s).sync = s.sync := rfl
@[simp] theorem refuse_cnt (op st : BitVec 8) (d : Word) : (refuse op st d s).cnt = s.cnt := rfl
@[simp] theorem refuse_det (op st : BitVec 8) (d : Word) : (refuse op st d s).det = s.det := rfl
@[simp] theorem refuse_freq (op st : BitVec 8) (d : Word) : (refuse op st d s).freq = s.freq := rfl
@[simp] theorem refuse_sym (op st : BitVec 8) (d : Word) : (refuse op st d s).sym = s.sym := rfl
@[simp] theorem refuse_sess (op st : BitVec 8) (d : Word) : (refuse op st d s).sess = s.sess := rfl
@[simp] theorem refuse_rb (op st : BitVec 8) (d : Word) : (refuse op st d s).rb = s.rb := rfl
@[simp] theorem refuse_cmdq (op st : BitVec 8) (d : Word) : (refuse op st d s).cmdq = s.cmdq := rfl
@[simp] theorem refuse_rsp (op st : BitVec 8) (d : Word) : (refuse op st d s).rsp = s.rsp ++ [⟨op, st, d⟩] := rfl
@[simp] theorem refuse_evt (op st : BitVec 8) (d : Word) : (refuse op st d s).evt = s.evt := rfl
@[simp] theorem refuse_turns (op st : BitVec 8) (d : Word) : (refuse op st d s).turns = s.turns := rfl
@[simp] theorem refuse_tick (op st : BitVec 8) (d : Word) : (refuse op st d s).tick = s.tick := rfl
@[simp] theorem refuse_draws (op st : BitVec 8) (d : Word) : (refuse op st d s).draws = s.draws := rfl

/-! ### `writeP` -/

@[simp] theorem writeP_cfg (i : Fin 8) (v : Word) : (writeP i v s).cfg = s.cfg := rfl
@[simp] theorem writeP_p (i : Fin 8) (v : Word) : (writeP i v s).p = s.p.set i v := rfl
@[simp] theorem writeP_ctrl (i : Fin 8) (v : Word) : (writeP i v s).ctrl = s.ctrl := rfl
@[simp] theorem writeP_flags (i : Fin 8) (v : Word) : (writeP i v s).flags = s.flags := rfl
@[simp] theorem writeP_sync (i : Fin 8) (v : Word) : (writeP i v s).sync = s.sync := rfl
@[simp] theorem writeP_cnt (i : Fin 8) (v : Word) : (writeP i v s).cnt = s.cnt := rfl
@[simp] theorem writeP_det (i : Fin 8) (v : Word) : (writeP i v s).det = s.det := rfl
@[simp] theorem writeP_freq (i : Fin 8) (v : Word) : (writeP i v s).freq = s.freq := rfl
@[simp] theorem writeP_sym (i : Fin 8) (v : Word) : (writeP i v s).sym = s.sym := rfl
@[simp] theorem writeP_sess (i : Fin 8) (v : Word) : (writeP i v s).sess = s.sess := rfl
@[simp] theorem writeP_rb (i : Fin 8) (v : Word) : (writeP i v s).rb = s.rb := rfl
@[simp] theorem writeP_cmdq (i : Fin 8) (v : Word) : (writeP i v s).cmdq = s.cmdq := rfl
@[simp] theorem writeP_rsp (i : Fin 8) (v : Word) : (writeP i v s).rsp = s.rsp := rfl
@[simp] theorem writeP_evt (i : Fin 8) (v : Word) : (writeP i v s).evt = s.evt := rfl
@[simp] theorem writeP_turns (i : Fin 8) (v : Word) : (writeP i v s).turns = s.turns := rfl
@[simp] theorem writeP_tick (i : Fin 8) (v : Word) : (writeP i v s).tick = s.tick := rfl
@[simp] theorem writeP_draws (i : Fin 8) (v : Word) : (writeP i v s).draws = s.draws := rfl

/-! ### `writeSlot` -/

@[simp] theorem writeSlot_cfg (id : Fin 64) (v : Option Session) : (writeSlot id v s).cfg = s.cfg := rfl
@[simp] theorem writeSlot_p (id : Fin 64) (v : Option Session) : (writeSlot id v s).p = s.p := rfl
@[simp] theorem writeSlot_ctrl (id : Fin 64) (v : Option Session) : (writeSlot id v s).ctrl = s.ctrl := rfl
@[simp] theorem writeSlot_flags (id : Fin 64) (v : Option Session) : (writeSlot id v s).flags = s.flags := rfl
@[simp] theorem writeSlot_sync (id : Fin 64) (v : Option Session) : (writeSlot id v s).sync = s.sync := rfl
@[simp] theorem writeSlot_cnt (id : Fin 64) (v : Option Session) : (writeSlot id v s).cnt = s.cnt := rfl
@[simp] theorem writeSlot_det (id : Fin 64) (v : Option Session) : (writeSlot id v s).det = s.det := rfl
@[simp] theorem writeSlot_freq (id : Fin 64) (v : Option Session) : (writeSlot id v s).freq = s.freq := rfl
@[simp] theorem writeSlot_sym (id : Fin 64) (v : Option Session) : (writeSlot id v s).sym = s.sym := rfl
@[simp] theorem writeSlot_sess (id : Fin 64) (v : Option Session) : (writeSlot id v s).sess = s.sess.set id v := rfl
@[simp] theorem writeSlot_rb (id : Fin 64) (v : Option Session) : (writeSlot id v s).rb = s.rb := rfl
@[simp] theorem writeSlot_cmdq (id : Fin 64) (v : Option Session) : (writeSlot id v s).cmdq = s.cmdq := rfl
@[simp] theorem writeSlot_rsp (id : Fin 64) (v : Option Session) : (writeSlot id v s).rsp = s.rsp := rfl
@[simp] theorem writeSlot_evt (id : Fin 64) (v : Option Session) : (writeSlot id v s).evt = s.evt := rfl
@[simp] theorem writeSlot_turns (id : Fin 64) (v : Option Session) : (writeSlot id v s).turns = s.turns := rfl
@[simp] theorem writeSlot_tick (id : Fin 64) (v : Option Session) : (writeSlot id v s).tick = s.tick := rfl
@[simp] theorem writeSlot_draws (id : Fin 64) (v : Option Session) : (writeSlot id v s).draws = s.draws := rfl

/-! ### `setSymIdx` -/

@[simp] theorem setSymIdx_cfg (v : BitVec 8) : (setSymIdx v s).cfg = s.cfg := rfl
@[simp] theorem setSymIdx_p (v : BitVec 8) : (setSymIdx v s).p = s.p := rfl
@[simp] theorem setSymIdx_ctrl (v : BitVec 8) : (setSymIdx v s).ctrl = s.ctrl := rfl
@[simp] theorem setSymIdx_flags (v : BitVec 8) : (setSymIdx v s).flags = s.flags := rfl
@[simp] theorem setSymIdx_sync (v : BitVec 8) : (setSymIdx v s).sync = s.sync := rfl
@[simp] theorem setSymIdx_cnt (v : BitVec 8) : (setSymIdx v s).cnt = s.cnt := rfl
@[simp] theorem setSymIdx_det (v : BitVec 8) : (setSymIdx v s).det = s.det := rfl
@[simp] theorem setSymIdx_freq (v : BitVec 8) : (setSymIdx v s).freq = s.freq := rfl
@[simp] theorem setSymIdx_sym (v : BitVec 8) : (setSymIdx v s).sym = { s.sym with symIdx := v } := rfl
@[simp] theorem setSymIdx_sess (v : BitVec 8) : (setSymIdx v s).sess = s.sess := rfl
@[simp] theorem setSymIdx_rb (v : BitVec 8) : (setSymIdx v s).rb = s.rb := rfl
@[simp] theorem setSymIdx_cmdq (v : BitVec 8) : (setSymIdx v s).cmdq = s.cmdq := rfl
@[simp] theorem setSymIdx_rsp (v : BitVec 8) : (setSymIdx v s).rsp = s.rsp := rfl
@[simp] theorem setSymIdx_evt (v : BitVec 8) : (setSymIdx v s).evt = s.evt := rfl
@[simp] theorem setSymIdx_turns (v : BitVec 8) : (setSymIdx v s).turns = s.turns := rfl
@[simp] theorem setSymIdx_tick (v : BitVec 8) : (setSymIdx v s).tick = s.tick := rfl
@[simp] theorem setSymIdx_draws (v : BitVec 8) : (setSymIdx v s).draws = s.draws := rfl

/-! ### `frameHead` -/

@[simp] theorem frameHead_cfg (y : List CInt) : (frameHead y s).cfg = s.cfg := rfl
@[simp] theorem frameHead_p (y : List CInt) : (frameHead y s).p = s.p := rfl
@[simp] theorem frameHead_ctrl (y : List CInt) : (frameHead y s).ctrl = s.ctrl := rfl
@[simp] theorem frameHead_flags (y : List CInt) : (frameHead y s).flags = s.flags := rfl
@[simp] theorem frameHead_sync (y : List CInt) : (frameHead y s).sync = s.sync := rfl
@[simp] theorem frameHead_cnt (y : List CInt) : (frameHead y s).cnt = s.cnt := rfl
@[simp] theorem frameHead_det (y : List CInt) : (frameHead y s).det = s.det := rfl
@[simp] theorem frameHead_freq (y : List CInt) : (frameHead y s).freq = s.freq := rfl
@[simp] theorem frameHead_sym (y : List CInt) : (frameHead y s).sym = { s.sym with yprev := y, ficbuf := [], mscbuf := [] } := rfl
@[simp] theorem frameHead_sess (y : List CInt) : (frameHead y s).sess = s.sess := rfl
@[simp] theorem frameHead_rb (y : List CInt) : (frameHead y s).rb = s.rb := rfl
@[simp] theorem frameHead_cmdq (y : List CInt) : (frameHead y s).cmdq = s.cmdq := rfl
@[simp] theorem frameHead_rsp (y : List CInt) : (frameHead y s).rsp = s.rsp := rfl
@[simp] theorem frameHead_evt (y : List CInt) : (frameHead y s).evt = s.evt := rfl
@[simp] theorem frameHead_turns (y : List CInt) : (frameHead y s).turns = s.turns := rfl
@[simp] theorem frameHead_tick (y : List CInt) : (frameHead y s).tick = s.tick := rfl
@[simp] theorem frameHead_draws (y : List CInt) : (frameHead y s).draws = s.draws := rfl

/-! ### `consume` -/

@[simp] theorem consume_cfg (n : Nat) : (consume n s).cfg = s.cfg := rfl
@[simp] theorem consume_p (n : Nat) : (consume n s).p = s.p := rfl
@[simp] theorem consume_ctrl (n : Nat) : (consume n s).ctrl = s.ctrl := rfl
@[simp] theorem consume_flags (n : Nat) : (consume n s).flags = s.flags := rfl
@[simp] theorem consume_sync (n : Nat) : (consume n s).sync = s.sync := rfl
@[simp] theorem consume_cnt (n : Nat) : (consume n s).cnt = s.cnt := rfl
@[simp] theorem consume_det (n : Nat) : (consume n s).det = senseAll s.cfg (consumedRaw n s) s.det := rfl
@[simp] theorem consume_sym (n : Nat) : (consume n s).sym = s.sym := rfl
@[simp] theorem consume_sess (n : Nat) : (consume n s).sess = s.sess := rfl
@[simp] theorem consume_rb (n : Nat) : (consume n s).rb = s.rb.drop n := rfl
@[simp] theorem consume_cmdq (n : Nat) : (consume n s).cmdq = s.cmdq := rfl
@[simp] theorem consume_rsp (n : Nat) : (consume n s).rsp = s.rsp := rfl
@[simp] theorem consume_evt (n : Nat) : (consume n s).evt = s.evt := rfl
@[simp] theorem consume_turns (n : Nat) : (consume n s).turns = s.turns := rfl
@[simp] theorem consume_tick (n : Nat) : (consume n s).tick = s.tick := rfl
@[simp] theorem consume_draws (n : Nat) : (consume n s).draws = s.draws := rfl

/-! ### `cifStart` -/

@[simp] theorem cifStart_cfg : (cifStart s).cfg = s.cfg := rfl
@[simp] theorem cifStart_p : (cifStart s).p = s.p := rfl
@[simp] theorem cifStart_ctrl : (cifStart s).ctrl = s.ctrl := rfl
@[simp] theorem cifStart_flags : (cifStart s).flags = s.flags := rfl
@[simp] theorem cifStart_sync : (cifStart s).sync = s.sync := rfl
@[simp] theorem cifStart_cnt : (cifStart s).cnt = { s.cnt with cifCnt := s.cnt.cifCnt + 1 } := rfl
@[simp] theorem cifStart_det : (cifStart s).det = s.det := rfl
@[simp] theorem cifStart_freq : (cifStart s).freq = s.freq := rfl
@[simp] theorem cifStart_sym : (cifStart s).sym = s.sym := rfl
@[simp] theorem cifStart_sess : (cifStart s).sess = s.sess := rfl
@[simp] theorem cifStart_rb : (cifStart s).rb = s.rb := rfl
@[simp] theorem cifStart_cmdq : (cifStart s).cmdq = s.cmdq := rfl
@[simp] theorem cifStart_rsp : (cifStart s).rsp = s.rsp := rfl
@[simp] theorem cifStart_evt : (cifStart s).evt = s.evt := rfl
@[simp] theorem cifStart_turns : (cifStart s).turns = s.turns := rfl
@[simp] theorem cifStart_tick : (cifStart s).tick = s.tick := rfl
@[simp] theorem cifStart_draws : (cifStart s).draws = s.draws + 1 := rfl

/-! ### `frameClose` -/

@[simp] theorem frameClose_cfg : (frameClose s).cfg = s.cfg := rfl
@[simp] theorem frameClose_p : (frameClose s).p = s.p := rfl
@[simp] theorem frameClose_ctrl : (frameClose s).ctrl = s.ctrl := rfl
@[simp] theorem frameClose_flags : (frameClose s).flags = s.flags := rfl
@[simp] theorem frameClose_sync : (frameClose s).sync = s.sync := rfl
@[simp] theorem frameClose_cnt : (frameClose s).cnt = { s.cnt with frameCnt := s.cnt.frameCnt + 1 } := rfl
@[simp] theorem frameClose_det : (frameClose s).det = s.det := rfl
@[simp] theorem frameClose_freq : (frameClose s).freq = s.freq := rfl
@[simp] theorem frameClose_sym : (frameClose s).sym = { s.sym with ficbuf := [], mscbuf := [], symIdx := 1 } := rfl
@[simp] theorem frameClose_sess : (frameClose s).sess = s.sess := rfl
@[simp] theorem frameClose_rb : (frameClose s).rb = s.rb := rfl
@[simp] theorem frameClose_cmdq : (frameClose s).cmdq = s.cmdq := rfl
@[simp] theorem frameClose_rsp : (frameClose s).rsp = s.rsp := rfl
@[simp] theorem frameClose_evt : (frameClose s).evt = s.evt := rfl
@[simp] theorem frameClose_turns : (frameClose s).turns = s.turns := rfl
@[simp] theorem frameClose_tick : (frameClose s).tick = s.tick := rfl
@[simp] theorem frameClose_draws : (frameClose s).draws = s.draws := rfl

/-! ### `hostCommand` -/

@[simp] theorem hostCommand_cfg (w : Word) : (hostCommand w s).cfg = s.cfg := rfl
@[simp] theorem hostCommand_p (w : Word) : (hostCommand w s).p = s.p := rfl
@[simp] theorem hostCommand_ctrl (w : Word) : (hostCommand w s).ctrl = s.ctrl := rfl
@[simp] theorem hostCommand_flags (w : Word) : (hostCommand w s).flags = s.flags := rfl
@[simp] theorem hostCommand_sync (w : Word) : (hostCommand w s).sync = s.sync := rfl
@[simp] theorem hostCommand_cnt (w : Word) : (hostCommand w s).cnt = s.cnt := rfl
@[simp] theorem hostCommand_det (w : Word) : (hostCommand w s).det = s.det := rfl
@[simp] theorem hostCommand_freq (w : Word) : (hostCommand w s).freq = s.freq := rfl
@[simp] theorem hostCommand_sym (w : Word) : (hostCommand w s).sym = s.sym := rfl
@[simp] theorem hostCommand_sess (w : Word) : (hostCommand w s).sess = s.sess := rfl
@[simp] theorem hostCommand_rb (w : Word) : (hostCommand w s).rb = s.rb := rfl
@[simp] theorem hostCommand_cmdq (w : Word) : (hostCommand w s).cmdq = s.cmdq ++ [w] := rfl
@[simp] theorem hostCommand_rsp (w : Word) : (hostCommand w s).rsp = s.rsp := rfl
@[simp] theorem hostCommand_evt (w : Word) : (hostCommand w s).evt = s.evt := rfl
@[simp] theorem hostCommand_turns (w : Word) : (hostCommand w s).turns = s.turns := rfl
@[simp] theorem hostCommand_tick (w : Word) : (hostCommand w s).tick = s.tick := rfl
@[simp] theorem hostCommand_draws (w : Word) : (hostCommand w s).draws = s.draws := rfl

/-! ### `hostCollect` -/

@[simp] theorem hostCollect_cfg : (hostCollect s).cfg = s.cfg := rfl
@[simp] theorem hostCollect_p : (hostCollect s).p = s.p := rfl
@[simp] theorem hostCollect_ctrl : (hostCollect s).ctrl = s.ctrl := rfl
@[simp] theorem hostCollect_flags : (hostCollect s).flags = s.flags := rfl
@[simp] theorem hostCollect_sync : (hostCollect s).sync = s.sync := rfl
@[simp] theorem hostCollect_cnt : (hostCollect s).cnt = s.cnt := rfl
@[simp] theorem hostCollect_det : (hostCollect s).det = s.det := rfl
@[simp] theorem hostCollect_freq : (hostCollect s).freq = s.freq := rfl
@[simp] theorem hostCollect_sym : (hostCollect s).sym = s.sym := rfl
@[simp] theorem hostCollect_sess : (hostCollect s).sess = s.sess := rfl
@[simp] theorem hostCollect_rb : (hostCollect s).rb = s.rb := rfl
@[simp] theorem hostCollect_cmdq : (hostCollect s).cmdq = s.cmdq := rfl
@[simp] theorem hostCollect_rsp : (hostCollect s).rsp = s.rsp.drop 1 := rfl
@[simp] theorem hostCollect_evt : (hostCollect s).evt = s.evt := rfl
@[simp] theorem hostCollect_turns : (hostCollect s).turns = s.turns := rfl
@[simp] theorem hostCollect_tick : (hostCollect s).tick = s.tick := rfl
@[simp] theorem hostCollect_draws : (hostCollect s).draws = s.draws := rfl

/-! ### `searchTimeout` -/

@[simp] theorem searchTimeout_cfg : (searchTimeout s).cfg = s.cfg := rfl
@[simp] theorem searchTimeout_p : (searchTimeout s).p = s.p := rfl
@[simp] theorem searchTimeout_ctrl : (searchTimeout s).ctrl = s.ctrl := rfl
@[simp] theorem searchTimeout_flags : (searchTimeout s).flags = { s.flags with presence := false } := rfl
@[simp] theorem searchTimeout_sync : (searchTimeout s).sync = s.sync := rfl
@[simp] theorem searchTimeout_cnt : (searchTimeout s).cnt = s.cnt := rfl
@[simp] theorem searchTimeout_det : (searchTimeout s).det = searchReset s.det := rfl
@[simp] theorem searchTimeout_freq : (searchTimeout s).freq = s.freq := rfl
@[simp] theorem searchTimeout_sym : (searchTimeout s).sym = s.sym := rfl
@[simp] theorem searchTimeout_sess : (searchTimeout s).sess = s.sess := rfl
@[simp] theorem searchTimeout_rb : (searchTimeout s).rb = s.rb := rfl
@[simp] theorem searchTimeout_cmdq : (searchTimeout s).cmdq = s.cmdq := rfl
@[simp] theorem searchTimeout_rsp : (searchTimeout s).rsp = s.rsp := rfl
@[simp] theorem searchTimeout_evt : (searchTimeout s).evt = s.evt ++ [evPresence false] := rfl
@[simp] theorem searchTimeout_turns : (searchTimeout s).turns = s.turns := rfl
@[simp] theorem searchTimeout_tick : (searchTimeout s).tick = s.tick := rfl
@[simp] theorem searchTimeout_draws : (searchTimeout s).draws = s.draws := rfl

/-! ### `raiseIf` -/

@[simp] theorem raiseIf_cfg (b : Bool) (e : Event) : (raiseIf b e s).cfg = s.cfg := by
  cases b <;> simp [raiseIf]
@[simp] theorem raiseIf_p (b : Bool) (e : Event) : (raiseIf b e s).p = s.p := by
  cases b <;> simp [raiseIf]
@[simp] theorem raiseIf_ctrl (b : Bool) (e : Event) : (raiseIf b e s).ctrl = s.ctrl := by
  cases b <;> simp [raiseIf]
@[simp] theorem raiseIf_flags (b : Bool) (e : Event) : (raiseIf b e s).flags = s.flags := by
  cases b <;> simp [raiseIf]
@[simp] theorem raiseIf_sync (b : Bool) (e : Event) : (raiseIf b e s).sync = s.sync := by
  cases b <;> simp [raiseIf]
@[simp] theorem raiseIf_cnt (b : Bool) (e : Event) : (raiseIf b e s).cnt = s.cnt := by
  cases b <;> simp [raiseIf]
@[simp] theorem raiseIf_det (b : Bool) (e : Event) : (raiseIf b e s).det = s.det := by
  cases b <;> simp [raiseIf]
@[simp] theorem raiseIf_freq (b : Bool) (e : Event) : (raiseIf b e s).freq = s.freq := by
  cases b <;> simp [raiseIf]
@[simp] theorem raiseIf_sym (b : Bool) (e : Event) : (raiseIf b e s).sym = s.sym := by
  cases b <;> simp [raiseIf]
@[simp] theorem raiseIf_sess (b : Bool) (e : Event) : (raiseIf b e s).sess = s.sess := by
  cases b <;> simp [raiseIf]
@[simp] theorem raiseIf_rb (b : Bool) (e : Event) : (raiseIf b e s).rb = s.rb := by
  cases b <;> simp [raiseIf]
@[simp] theorem raiseIf_cmdq (b : Bool) (e : Event) : (raiseIf b e s).cmdq = s.cmdq := by
  cases b <;> simp [raiseIf]
@[simp] theorem raiseIf_rsp (b : Bool) (e : Event) : (raiseIf b e s).rsp = s.rsp := by
  cases b <;> simp [raiseIf]
@[simp] theorem raiseIf_evt (b : Bool) (e : Event) : (raiseIf b e s).evt = s.evt ++ if b then [e] else [] := by
  cases b <;> simp [raiseIf]
@[simp] theorem raiseIf_turns (b : Bool) (e : Event) : (raiseIf b e s).turns = s.turns := by
  cases b <;> simp [raiseIf]
@[simp] theorem raiseIf_tick (b : Bool) (e : Event) : (raiseIf b e s).tick = s.tick := by
  cases b <;> simp [raiseIf]
@[simp] theorem raiseIf_draws (b : Bool) (e : Event) : (raiseIf b e s).draws = s.draws := by
  cases b <;> simp [raiseIf]

/-! ### `setSync` -/

@[simp] theorem setSync_cfg (v : SyncState) : (setSync v s).cfg = s.cfg := by
  simp [setSync]
@[simp] theorem setSync_p (v : SyncState) : (setSync v s).p = s.p := by
  simp [setSync]
@[simp] theorem setSync_ctrl (v : SyncState) : (setSync v s).ctrl = s.ctrl := by
  simp [setSync]
@[simp] theorem setSync_flags (v : SyncState) : (setSync v s).flags = s.flags := by
  simp [setSync]
@[simp] theorem setSync_sync (v : SyncState) : (setSync v s).sync = v := by
  simp [setSync]
@[simp] theorem setSync_cnt (v : SyncState) : (setSync v s).cnt = s.cnt := by
  simp [setSync]
@[simp] theorem setSync_det (v : SyncState) : (setSync v s).det = s.det := by
  simp [setSync]
@[simp] theorem setSync_freq (v : SyncState) : (setSync v s).freq = s.freq := by
  simp [setSync]
@[simp] theorem setSync_sym (v : SyncState) : (setSync v s).sym = s.sym := by
  simp [setSync]
@[simp] theorem setSync_sess (v : SyncState) : (setSync v s).sess = s.sess := by
  simp [setSync]
@[simp] theorem setSync_rb (v : SyncState) : (setSync v s).rb = s.rb := by
  simp [setSync]
@[simp] theorem setSync_cmdq (v : SyncState) : (setSync v s).cmdq = s.cmdq := by
  simp [setSync]
@[simp] theorem setSync_rsp (v : SyncState) : (setSync v s).rsp = s.rsp := by
  simp [setSync]
@[simp] theorem setSync_evt (v : SyncState) : (setSync v s).evt = s.evt ++ if s.sync = v then [] else [evSyncState v] := by
  simp [setSync]
@[simp] theorem setSync_turns (v : SyncState) : (setSync v s).turns = s.turns := by
  simp [setSync]
@[simp] theorem setSync_tick (v : SyncState) : (setSync v s).tick = s.tick := by
  simp [setSync]
@[simp] theorem setSync_draws (v : SyncState) : (setSync v s).draws = s.draws := by
  simp [setSync]

/-! ### `setPresence` -/

@[simp] theorem setPresence_cfg (b : Bool) : (setPresence b s).cfg = s.cfg := by
  simp [setPresence]
@[simp] theorem setPresence_p (b : Bool) : (setPresence b s).p = s.p := by
  simp [setPresence]
@[simp] theorem setPresence_ctrl (b : Bool) : (setPresence b s).ctrl = s.ctrl := by
  simp [setPresence]
@[simp] theorem setPresence_flags (b : Bool) : (setPresence b s).flags = { s.flags with presence := b } := by
  simp [setPresence]
@[simp] theorem setPresence_sync (b : Bool) : (setPresence b s).sync = s.sync := by
  simp [setPresence]
@[simp] theorem setPresence_cnt (b : Bool) : (setPresence b s).cnt = s.cnt := by
  simp [setPresence]
@[simp] theorem setPresence_det (b : Bool) : (setPresence b s).det = s.det := by
  simp [setPresence]
@[simp] theorem setPresence_freq (b : Bool) : (setPresence b s).freq = s.freq := by
  simp [setPresence]
@[simp] theorem setPresence_sym (b : Bool) : (setPresence b s).sym = s.sym := by
  simp [setPresence]
@[simp] theorem setPresence_sess (b : Bool) : (setPresence b s).sess = s.sess := by
  simp [setPresence]
@[simp] theorem setPresence_rb (b : Bool) : (setPresence b s).rb = s.rb := by
  simp [setPresence]
@[simp] theorem setPresence_cmdq (b : Bool) : (setPresence b s).cmdq = s.cmdq := by
  simp [setPresence]
@[simp] theorem setPresence_rsp (b : Bool) : (setPresence b s).rsp = s.rsp := by
  simp [setPresence]
@[simp] theorem setPresence_evt (b : Bool) : (setPresence b s).evt = s.evt ++ if s.flags.presence = b then [] else [evPresence b] := by
  simp [setPresence]
@[simp] theorem setPresence_turns (b : Bool) : (setPresence b s).turns = s.turns := by
  simp [setPresence]
@[simp] theorem setPresence_tick (b : Bool) : (setPresence b s).tick = s.tick := by
  simp [setPresence]
@[simp] theorem setPresence_draws (b : Bool) : (setPresence b s).draws = s.draws := by
  simp [setPresence]

/-! ### `freqReport` -/

@[simp] theorem freqReport_cfg : (freqReport s).cfg = s.cfg := by
  unfold freqReport; split <;> rfl
@[simp] theorem freqReport_p : (freqReport s).p = s.p := by
  unfold freqReport; split <;> rfl
@[simp] theorem freqReport_ctrl : (freqReport s).ctrl = s.ctrl := by
  unfold freqReport; split <;> rfl
@[simp] theorem freqReport_flags : (freqReport s).flags = s.flags := by
  unfold freqReport; split <;> rfl
@[simp] theorem freqReport_sync : (freqReport s).sync = s.sync := by
  unfold freqReport; split <;> rfl
@[simp] theorem freqReport_cnt : (freqReport s).cnt = s.cnt := by
  unfold freqReport; split <;> rfl
@[simp] theorem freqReport_det : (freqReport s).det = s.det := by
  unfold freqReport; split <;> rfl
@[simp] theorem freqReport_sym : (freqReport s).sym = s.sym := by
  unfold freqReport; split <;> rfl
@[simp] theorem freqReport_sess : (freqReport s).sess = s.sess := by
  unfold freqReport; split <;> rfl
@[simp] theorem freqReport_rb : (freqReport s).rb = s.rb := by
  unfold freqReport; split <;> rfl
@[simp] theorem freqReport_cmdq : (freqReport s).cmdq = s.cmdq := by
  unfold freqReport; split <;> rfl
@[simp] theorem freqReport_rsp : (freqReport s).rsp = s.rsp := by
  unfold freqReport; split <;> rfl
@[simp] theorem freqReport_turns : (freqReport s).turns = s.turns := by
  unfold freqReport; split <;> rfl
@[simp] theorem freqReport_tick : (freqReport s).tick = s.tick := by
  unfold freqReport; split <;> rfl
@[simp] theorem freqReport_draws : (freqReport s).draws = s.draws := by
  unfold freqReport; split <;> rfl

/-! ### `afterChoice` -/

@[simp] theorem afterChoice_cfg : (afterChoice s).cfg = s.cfg := by
  unfold afterChoice; split <;> rfl
@[simp] theorem afterChoice_p : (afterChoice s).p = s.p := by
  unfold afterChoice; split <;> rfl
@[simp] theorem afterChoice_ctrl : (afterChoice s).ctrl = s.ctrl := by
  unfold afterChoice; split <;> rfl
@[simp] theorem afterChoice_flags : (afterChoice s).flags = s.flags := by
  unfold afterChoice; split <;> rfl
@[simp] theorem afterChoice_sync : (afterChoice s).sync = s.sync := by
  unfold afterChoice; split <;> rfl
@[simp] theorem afterChoice_cnt : (afterChoice s).cnt = s.cnt := by
  unfold afterChoice; split <;> rfl
@[simp] theorem afterChoice_det : (afterChoice s).det = s.det := by
  unfold afterChoice; split <;> rfl
@[simp] theorem afterChoice_freq : (afterChoice s).freq = s.freq := by
  unfold afterChoice; split <;> rfl
@[simp] theorem afterChoice_sym : (afterChoice s).sym = s.sym := by
  unfold afterChoice; split <;> rfl
@[simp] theorem afterChoice_sess : (afterChoice s).sess = s.sess := by
  unfold afterChoice; split <;> rfl
@[simp] theorem afterChoice_rb : (afterChoice s).rb = s.rb := by
  unfold afterChoice; split <;> rfl
@[simp] theorem afterChoice_cmdq : (afterChoice s).cmdq = s.cmdq := by
  unfold afterChoice; split <;> rfl
@[simp] theorem afterChoice_rsp : (afterChoice s).rsp = s.rsp := by
  unfold afterChoice; split <;> rfl
@[simp] theorem afterChoice_evt : (afterChoice s).evt = s.evt := by
  unfold afterChoice; split <;> rfl
@[simp] theorem afterChoice_draws : (afterChoice s).draws = s.draws := by
  unfold afterChoice; split <;> rfl

end Sys2Proof.Machine
end

