-- ==== Sys2Proof/Laws/Ops.lean ====
section
/-! SUPPORT. One lemma per shared operation: what it can do, said once. -/

namespace Sys2Proof.Machine

variable (s : State)

/-! ### Events -/

theorem raise_eq (e : Event) : raise e s = raiseAll [e] s := rfl

@[simp] theorem raiseAll_nil : raiseAll [] s = s := by simp [raiseAll]

@[simp] theorem raiseAll_raiseAll (es fs : List Event) : raiseAll fs (raiseAll es s) = raiseAll (es ++ fs) s := by
  simp [raiseAll]

theorem raiseIf_eq (b : Bool) (e : Event) : raiseIf b e s = raiseAll (if b then [e] else []) s := by
  cases b <;> simp [raiseIf, raise_eq]

/-- `setSync`: the new value, and one record if it is another one (R178). -/
theorem setSync_eq (v : SyncState) :
    setSync v s = raiseAll (if s.sync = v then [] else [evSyncState v]) { s with sync := v } := by
  by_cases h : s.sync = v <;> simp [setSync, raiseIf, h, raise_eq]

/-- `setPresence`: the new value, and one record if it is another one (R179). -/
theorem setPresence_eq (b : Bool) :
    setPresence b s = raiseAll (if s.flags.presence = b then [] else [evPresence b])
      { s with flags := { s.flags with presence := b } } := by
  by_cases h : s.flags.presence = b <;> simp [setPresence, raiseIf, h, raise_eq]

/-- `freqReport`: nothing, or one record and the pair it reported (R164). -/
theorem freqReport_cases :
    (freqReport s = s ∧ s.freq.coarse = s.freq.lastCoarse ∧ s.freq.fine = s.freq.lastFine) ∨
    (freqReport s = raiseAll [evFreqCorr s.freq.fine s.freq.coarse]
        { s with freq := { s.freq with lastCoarse := s.freq.coarse, lastFine := s.freq.fine } } ∧
      ¬ (s.freq.coarse = s.freq.lastCoarse ∧ s.freq.fine = s.freq.lastFine)) := by
  by_cases h : s.freq.coarse = s.freq.lastCoarse ∧ s.freq.fine = s.freq.lastFine
  · exact .inl ⟨by simp [freqReport, h], h⟩
  · exact .inr ⟨by simp [freqReport, h, raise_eq], h⟩

/-- `raiseTii`: nothing, or one record of the detector (R202). -/
theorem raiseTii_cases (v : List Word) :
    raiseTii v s = s ∨ ∃ r, tii s.cfg v = some r ∧ s.ctrl.enTii = true ∧ raiseTii v s = raiseAll [evTii r] s := by
  unfold raiseTii
  cases h : s.ctrl.enTii
  · simp
  · cases tii s.cfg v <;> simp [raise_eq]

/-! ### Registers and slots -/

@[simp] theorem readP_writeP_self (i : Fin 8) (v : Word) : readP (writeP i v s) i = v := by
  simp [readP, writeP]

theorem readP_writeP_other (i j : Fin 8) (v : Word) (h : i ≠ j) : readP (writeP i v s) j = readP s j := by
  have : i.val ≠ j.val := fun e => h (Fin.ext e)
  simp [readP, writeP, this]

@[simp] theorem slot_writeSlot_self (id : Fin 64) (v : Option Session) : slot (writeSlot id v s) id = v := by
  simp [slot, writeSlot]

theorem slot_writeSlot_other (a b : Fin 64) (v : Option Session) (h : a ≠ b) :
    slot (writeSlot a v s) b = slot s b := by
  have : a.val ≠ b.val := fun e => h (Fin.ext e)
  simp [slot, writeSlot, this]

@[simp] theorem slot_raiseAll (es : List Event) (id : Fin 64) : slot (raiseAll es s) id = slot s id := rfl

@[simp] theorem slot_respond (op st : BitVec 8) (d : Word) (id : Fin 64) :
    slot (respond op st d s) id = slot s id := rfl

theorem mem_openIds (id : Fin 64) : id ∈ openIds s ↔ ∃ x, slot s id = some x := by
  simp [openIds, Option.isSome_iff_exists]

theorem regOperand_eq_some (a : BitVec 8) (i : Fin 8) : regOperand a = some i ↔ a.toNat = i.val := by
  unfold regOperand
  by_cases h : a.toNat < 8
  · simp [h, Fin.ext_iff]
  · simp only [h, dite_false, reduceCtorEq, false_iff]; omega

theorem regOperand_eq_none (a : BitVec 8) : regOperand a = none ↔ 7 < a.toNat := by
  unfold regOperand
  by_cases h : a.toNat < 8
  · simp only [h, dite_true, reduceCtorEq, false_iff]; omega
  · simp only [h, dite_false, true_iff]; omega

theorem slotOperand_eq_some (a : BitVec 8) (i : Fin 64) : slotOperand a = some i ↔ a.toNat = i.val := by
  unfold slotOperand
  by_cases h : a.toNat < 64
  · simp [h, Fin.ext_iff]
  · simp only [h, dite_false, reduceCtorEq, false_iff]; omega

theorem slotOperand_eq_none (a : BitVec 8) : slotOperand a = none ↔ 63 < a.toNat := by
  unfold slotOperand
  by_cases h : a.toNat < 64
  · simp only [h, dite_true, reduceCtorEq, false_iff]; omega
  · simp only [h, dite_false, true_iff]; omega

/-! ### Ranges -/

theorem rangeBad_eq_false (d : Descriptor) : rangeBad d = false ↔ d.sizeCu ≠ 0 ∧ d.startCu.toNat + d.sizeCu.toNat ≤ cifCu := by
  simp [rangeBad]

theorem rangesMeet_eq_true (d e : Descriptor) :
    rangesMeet d e = true ↔
      d.startCu.toNat < e.startCu.toNat + e.sizeCu.toNat ∧ e.startCu.toNat < d.startCu.toNat + d.sizeCu.toNat := by
  simp [rangesMeet]

/-! ### Sequences -/

theorem slice_length {α : Type} (v : List α) (a b : Nat) (h : b ≤ v.length) : (slice v a b).length = b - a := by
  simp only [slice, List.length_take, List.length_drop]; omega

theorem mem_slice {α : Type} (v : List α) (a b : Nat) (x : α) (h : x ∈ slice v a b) : x ∈ v :=
  List.mem_of_mem_drop (List.mem_of_mem_take h)

@[simp] theorem packBytesN_length (n : Nat) (bs : List Bool) : (packBytesN n bs).length = n := by
  induction n generalizing bs with
  | zero => rfl
  | succ n ih => simp [packBytesN, ih]

@[simp] theorem packWordsN_length (n : Nat) (bs : List Byte) : (packWordsN n bs).length = n := by
  induction n generalizing bs with
  | zero => rfl
  | succ n ih => simp [packWordsN, ih]

@[simp] theorem prbsFrom_length (reg : BitVec 9) (n : Nat) : (prbsFrom reg n).length = n := by
  induction n generalizing reg with
  | zero => rfl
  | succ n ih => simp [prbsFrom, ih]

@[simp] theorem descramble_length (u : List Bool) : (descramble u).length = u.length := by
  simp [descramble]

@[simp] theorem rotateAll_length (c : Cfg) (d ph : Word) (ws : List Word) : (rotateAll c d ph ws).length = ws.length := by
  induction ws generalizing ph with
  | nil => rfl
  | cons w ws ih => simp [rotateAll, ih]

@[simp] theorem fft_length (c : Cfg) (x : List CInt) : (fft c x).length = c.tU := by
  unfold fft; split <;> simp

theorem consumedRaw_length (n : Nat) (h : n ≤ s.rb.length) : (consumedRaw n s).length = n := by
  simp [consumedRaw, h]

theorem consumedRot_length (n : Nat) (h : n ≤ s.rb.length) : (consumedRot n s).length = n := by
  simp [consumedRot, consumedRaw_length s n h]

/-! ### The checks and the code -/

theorem depunctureMask_length (ms : List Bool) (p : List Soft) : (depunctureMask ms p).length = ms.length := by
  fun_induction depunctureMask ms p <;> simp_all

/-- The selection takes one of the two candidates, and a present one if there is one (R218). -/
theorem select_cases (a b : Option Int) :
    ((select a b).1 = a ∧ (select a b).2 = false) ∨ ((select a b).1 = b ∧ (select a b).2 = true) := by
  cases a <;> cases b <;> simp [select]
  split <;> simp

@[simp] theorem acsStep_length (c : Cfg) (tail : Bool) (m4 : List Soft) (pm : PathMetrics) :
    (acsStep c tail m4 pm).length = c.nst := by
  simp [acsStep]

@[simp] theorem rsWord_length (n : Nat) (sf : List Byte) (j : Nat) : (rsWord n sf j).length = 120 := by
  simp [rsWord]

@[simp] theorem audioFrame_length (n : Nat) (rs : List (List Byte × Nat × Bool)) :
    (audioFrame n rs).length = 110 * n := by
  simp [audioFrame]

/-! ### One session, one CIF -/

/-- A superframe attempt: the two counts, and either the superframe and an empty buffer or one frame dropped
(R297). -/
theorem sfAttempt_cases (id : Fin 64) (x : Session) :
    ∃ corrected failed au,
      (sfAttempt id x = ({ x with sfBuf := [], sfFill := 0 },
          [evRsErrors id corrected failed, evFrameErrors id false, evSuperframe id au])) ∨
      (sfAttempt id x = ({ x with sfBuf := x.sfBuf.drop 1, sfFill := 4 },
          [evRsErrors id corrected failed, evFrameErrors id true])) := by
  refine ⟨rsCorrected (rsResults x.desc.rsS x.sfBuf.flatten), rsFailed (rsResults x.desc.rsS x.sfBuf.flatten),
    audioFrame x.desc.rsS (rsResults x.desc.rsS x.sfBuf.flatten), ?_⟩
  by_cases h : firecodeOk
      ((audioFrame x.desc.rsS (rsResults x.desc.rsS x.sfBuf.flatten)).take 11) = true
  · exact .inl (by simp [sfAttempt, h])
  · exact .inr (by simp [sfAttempt, Bool.not_eq_true _ ▸ h])

/-- The service of a session writes its own slot and appends its records (R241, R242). -/
theorem serveSession_eq (cif : List Soft) (id : Fin 64) :
    serveSession cif s id = match slot s id with
      | none => s
      | some x => raiseAll (sessionCif s.cfg id (cuRange x.desc cif) x).2
          (writeSlot id (some (sessionCif s.cfg id (cuRange x.desc cif) x).1) s) := rfl

end Sys2Proof.Machine
end

