-- ==== Sys2Proof/Laws/Words.lean ====
section
/-! SUPPORT. The fields of command words (30_encoding.md R90). -/

namespace Sys2Proof

/-- A bit of a command word, by field (R90). -/
theorem getLsbD_commandWord (op a : BitVec 8) (imm : BitVec 16) (i : Nat) :
    (commandWord op a imm).getLsbD i =
      if i < 16 then imm.getLsbD i else if i < 24 then a.getLsbD (i - 16) else op.getLsbD (i - 24) := by
  change BitVec.getLsbD (w := 8 + 8 + 16) (op ++ a ++ imm) i = _
  simp only [BitVec.getLsbD_append, show i - 16 - 8 = i - 24 by omega]
  by_cases h : i < 16
  · simp [h]
  · by_cases h2 : i < 24
    · simp [h, h2, show i - 16 < 8 by omega]
    · simp [h, h2, show ¬ i - 16 < 8 by omega]

@[simp] theorem opField_commandWord (op a : BitVec 8) (imm : BitVec 16) : opField (commandWord op a imm) = op := by
  apply BitVec.eq_of_getLsbD_eq
  intro i hi
  simp [opField, getLsbD_commandWord, hi, show ¬ 24 + i < 16 by omega, show ¬ 24 + i < 24 by omega]

@[simp] theorem aField_commandWord (op a : BitVec 8) (imm : BitVec 16) : aField (commandWord op a imm) = a := by
  apply BitVec.eq_of_getLsbD_eq
  intro i hi
  simp [aField, getLsbD_commandWord, hi, show 16 + i < 24 by omega]

@[simp] theorem immField_commandWord (op a : BitVec 8) (imm : BitVec 16) : immField (commandWord op a imm) = imm := by
  apply BitVec.eq_of_getLsbD_eq
  intro i hi
  simp [immField, getLsbD_commandWord, hi]

/-- A word is its three fields (R90). -/
theorem commandWord_fields (w : Word) : commandWord (opField w) (aField w) (immField w) = w := by
  apply BitVec.eq_of_getLsbD_eq
  intro i hi
  simp only [getLsbD_commandWord, opField, aField, immField, BitVec.getLsbD_extractLsb']
  by_cases h : i < 16
  · simp [h]
  · by_cases h2 : i < 24
    · simp [h, h2, show i - 16 < 8 by omega, show 16 + (i - 16) = i by omega]
    · simp [h, h2, show i - 24 < 8 by omega, show 24 + (i - 24) = i by omega]

/-- The row of a known opcode never answers *illegal* (R93). -/
@[simp] theorem check_ne_illegal (ok : Bool) (i : Instr) : Decoded.check ok i ≠ .illegal := by
  cases ok <;> simp [Decoded.check]

theorem check_eq_command (ok : Bool) (i j : Instr) : Decoded.check ok i = .command j ↔ ok = true ∧ i = j := by
  cases ok <;> simp [Decoded.check]

theorem check_eq_malformed (ok : Bool) (i : Instr) : Decoded.check ok i = .malformed ↔ ok = false := by
  cases ok <;> simp [Decoded.check]

end Sys2Proof
end

