-- ==== Sys2Proof/Laws/PerInstr.lean ====
section
/-! SUPPORT. A property of every command, one lemma per constructor (LAWS.json, family `CommandWord`). -/

namespace Sys2Proof.Laws.CommandWord

/-- The word of a command carries the command's opcode, and no word of a command is illegal (R92, R93). -/
def Statement (i : Instr) : Prop := opField (encode i) = i.opcode ∧ decode (encode i) ≠ .illegal

theorem nop : Statement .nop := by simp [Statement, encode, Instr.opcode, decode]

theorem restart (doScan : Bool) : Statement (.restart doScan) := by
  cases doScan <;> simp [Statement, encode, Instr.opcode, decode]

theorem stop : Statement .stop := by simp [Statement, encode, Instr.opcode, decode]

theorem ldpl (i : BitVec 8) (imm16 : BitVec 16) : Statement (.ldpl i imm16) := by
  simp [Statement, encode, Instr.opcode, decode]

theorem ldph (i : BitVec 8) (imm16 : BitVec 16) : Statement (.ldph i imm16) := by
  simp [Statement, encode, Instr.opcode, decode]

theorem rdp (i : BitVec 8) : Statement (.rdp i) := by
  simp [Statement, encode, Instr.opcode, decode]

theorem wrcsr (csr : BitVec 8) : Statement (.wrcsr csr) := by
  simp [Statement, encode, Instr.opcode, decode]

theorem rdcsr (csr : BitVec 8) : Statement (.rdcsr csr) := by
  simp [Statement, encode, Instr.opcode, decode]

theorem sopen (id : BitVec 8) : Statement (.sopen id) := by
  simp [Statement, encode, Instr.opcode, decode]

theorem sclose (id : BitVec 8) : Statement (.sclose id) := by
  simp [Statement, encode, Instr.opcode, decode]

theorem sstat (id : BitVec 8) : Statement (.sstat id) := by
  simp [Statement, encode, Instr.opcode, decode]

end Sys2Proof.Laws.CommandWord
end

