-- ==== Sys2Proof/Laws/Step.lean ====
section
/-! SUPPORT. What a step can be, said once: the agents' steps, and the six steps of `PIPE`. -/

namespace Sys2Proof.Machine

/-- A step of the machine is a step of one agent on the state with the choice used up (R18). -/
theorem step_cases {s t : State} (h : step s = .next t) :
    (∃ w rest, chosenTurn s = .cmd ∧ s.cmdq = w :: rest ∧
      runWord w { afterChoice s with cmdq := rest } = .next t) ∨
    (chosenTurn s = .cmd ∧ s.cmdq = [] ∧ t = afterChoice s) ∨
    (chosenTurn s = .pipe ∧ t = pipeStep (afterChoice s)) ∨
    (∃ w, chosenTurn s = .push w ∧ t = srcPush w (afterChoice s)) ∨
    (∃ m, chosenTurn s = .miss m ∧ t = srcMiss m (afterChoice s)) ∨
    (chosenTurn s = .fail ∧ t = srcFailStep (afterChoice s)) ∨
    (∃ w, chosenTurn s = .command w ∧ t = hostCommand w (afterChoice s)) ∨
    (chosenTurn s = .collect ∧ t = hostCollect (afterChoice s)) := by
  unfold step at h
  cases hc : chosenTurn s with
  | cmd =>
    rw [hc] at h
    simp only [takeTurn, cmdStep, afterChoice_cmdq] at h
    cases hq : s.cmdq with
    | nil => rw [hq] at h; simp at h; simp [h]
    | cons w rest => rw [hq] at h; exact .inl ⟨w, rest, rfl, rfl, h⟩
  | pipe => rw [hc] at h; simp [takeTurn] at h; simp [h]
  | push w => rw [hc] at h; simp [takeTurn] at h; simp [h]
  | miss m => rw [hc] at h; simp [takeTurn] at h; simp [h]
  | fail => rw [hc] at h; simp [takeTurn] at h; simp [h]
  | command w => rw [hc] at h; simp [takeTurn] at h; simp [h]
  | collect => rw [hc] at h; simp [takeTurn] at h; simp [h]

/-- The table of 10_state.md R22: what `PIPE`'s step is. -/
theorem pipeStep_cases (s : State) :
    pipeStep s = s ∨
    (s.flags.run = true ∧ s.sync = .unsynchronized ∧ pipeStep s = beginStep s) ∨
    (∃ w rest, s.flags.run = true ∧ s.sync = .acquiringNull ∧ s.rb = w :: rest ∧
      pipeStep s = nullSearch w rest s) ∨
    (s.flags.run = true ∧ s.sync = .acquiringPhaseReference ∧ acquireLen s.cfg ≤ s.rb.length ∧
      pipeStep s = acquire s) ∨
    (s.flags.run = true ∧ s.sync = .synchronized ∧ s.sym.symIdx.toNat = 1 ∧ trackLen s.cfg ≤ s.rb.length ∧
      pipeStep s = track s) ∨
    (s.flags.run = true ∧ s.sync = .synchronized ∧ 2 ≤ s.sym.symIdx.toNat ∧
      s.sym.symIdx.toNat ≤ s.cfg.symbols ∧ s.cfg.tS ≤ s.rb.length ∧ pipeStep s = symbolStep s) := by
  unfold pipeStep
  cases hr : s.flags.run
  · simp
  · simp only [if_true]
    unfold pipeRun
    cases hs : s.sync with
    | unsynchronized => simp
    | acquiringNull =>
      cases hb : s.rb with
      | nil => simp
      | cons w rest => exact .inr (.inr (.inl ⟨w, rest, by simp⟩))
    | acquiringPhaseReference => by_cases h : acquireLen s.cfg ≤ s.rb.length <;> simp [h]
    | synchronized =>
      by_cases h1 : s.sym.symIdx.toNat = 1
      · by_cases h2 : trackLen s.cfg ≤ s.rb.length <;> simp [h1, h2]
      · by_cases h2 : 2 ≤ s.sym.symIdx.toNat ∧ s.sym.symIdx.toNat ≤ s.cfg.symbols ∧ s.cfg.tS ≤ s.rb.length
        · simp [h1, h2]
        · simp [h1, h2]

/-- The null-search step ends the null symbol, times out, or goes on (R145 to R147). -/
theorem nullSearch_cases (w : Word) (rest : List Word) (s : State) :
    ∃ u, u = { s with rb := rest, det := searchSense s.cfg w s.det } ∧
      ((nullEnds s.cfg u.det = true ∧ nullSearch w rest s = nullFound u) ∨
       (nullEnds s.cfg u.det = false ∧ ∃ v, v = { u with det := dipUpdate s.cfg u.det } ∧
        ((s.cfg.nullTimeout ≤ v.det.nsCount.toNat ∧ nullSearch w rest s = searchTimeout v) ∨
         (v.det.nsCount.toNat < s.cfg.nullTimeout ∧ nullSearch w rest s = v)))) := by
  refine ⟨_, rfl, ?_⟩
  simp only [nullSearch]
  cases h : nullEnds s.cfg (searchSense s.cfg w s.det)
  · refine .inr ⟨rfl, _, rfl, ?_⟩
    by_cases h2 : s.cfg.nullTimeout ≤ (dipUpdate s.cfg (searchSense s.cfg w s.det)).nsCount.toNat
    · exact .inl ⟨h2, by simp [h2]⟩
    · exact .inr ⟨Nat.lt_of_not_le h2, by simp [h2]⟩
  · exact .inl ⟨rfl, by simp⟩

end Sys2Proof.Machine
end

