-- ==== Sys2Proof/Laws/Schedule.lean ====
section
/-! SUPPORT. The schedule gives every agent a turn again and again, and `PIPE` leaves the choices still to come
as they are (60_exceptions.md R331). -/

namespace Sys2Proof.Machine

/-! ### The schedule -/

@[simp] theorem turnAgent_turnOf (a : Agent) (t : Turn) : turnAgent (turnOf a t) = a := by
  unfold turnOf
  split
  · assumption
  · cases a <;> rfl

/-- Fewer rounds are a prefix of more. -/
theorem rounds_prefix {m n : Nat} (h : m ≤ n) :
    (List.range m).flatMap turnRound <+: (List.range n).flatMap turnRound := by
  obtain ⟨k, rfl⟩ := Nat.exists_eq_add_of_le h
  rw [List.range_add, List.flatMap_append]
  exact List.prefix_append _ _

/-- Every round has a turn. -/
theorem le_rounds_length (n : Nat) : n ≤ ((List.range n).flatMap turnRound).length := by
  induction n with
  | zero => exact Nat.zero_le _
  | succ n ih =>
    have h : 1 ≤ (turnRound n).length := by simp [turnRound]
    rw [List.range_succ, List.flatMap_append, List.length_append, List.flatMap_singleton]
    exact Nat.add_le_add ih h

/-- A turn of some rounds is the same turn of more rounds. -/
theorem rounds_getElem? {m n i : Nat} (h : m ≤ n) (hi : i < ((List.range m).flatMap turnRound).length) :
    ((List.range n).flatMap turnRound)[i]? = ((List.range m).flatMap turnRound)[i]? := by
  obtain ⟨u, hu⟩ := rounds_prefix h
  rw [← hu, List.getElem?_append_left hi]

/-- The schedule read from any number of rounds. -/
theorem schedule_of_rounds {n i : Nat} {t : Turn} (h : ((List.range n).flatMap turnRound)[i]? = some t) :
    schedule i = t := by
  have hi : i < ((List.range (i + 1)).flatMap turnRound).length := le_rounds_length (i + 1)
  rw [schedule, List.getD_eq_getElem?_getD]
  rcases Nat.le_total n (i + 1) with hn | hn
  · rw [rounds_getElem? hn (List.getElem?_eq_some_iff.mp h).1, h, Option.getD_some]
  · rw [← rounds_getElem? hn hi, h, Option.getD_some]

/-- Every agent has a turn after any point of the schedule (R331). -/
theorem schedule_fair (a : Agent) (n : Nat) : ∃ m, n ≤ m ∧ turnAgent (schedule m) = a := by
  obtain ⟨k, hk, ha⟩ : ∃ k, n ≤ k ∧ roundAgent k = a := by
    cases a with
    | cmd => exact ⟨4 * n, by omega, by simp [roundAgent]⟩
    | pipe => exact ⟨4 * n + 1, by omega, by simp [roundAgent, Nat.add_mod]⟩
    | src => exact ⟨4 * n + 2, by omega, by simp [roundAgent, Nat.add_mod]⟩
    | host => exact ⟨4 * n + 3, by omega, by simp [roundAgent, Nat.add_mod]⟩
  refine ⟨((List.range k).flatMap turnRound).length + (Config.freeTurns k).length, ?_, ?_⟩
  · exact Nat.le_trans hk (Nat.le_trans (le_rounds_length k) (Nat.le_add_right _ _))
  · rw [schedule_of_rounds (n := k + 1) (t := turnOf (roundAgent k) (Config.freeTurn k)), turnAgent_turnOf, ha]
    rw [List.range_succ, List.flatMap_append, List.getElem?_append_right (Nat.le_add_right _ _)]
    simp [turnRound]

/-! ### What `PIPE` does to the choices still to come -/

/-- A fold of updates that keep the choices keeps them. -/
theorem foldl_choices {α : Type} {f : State → α → State}
    (h : ∀ s x, (f s x).turns = s.turns ∧ (f s x).tick = s.tick) (xs : List α) (s : State) :
    (xs.foldl f s).turns = s.turns ∧ (xs.foldl f s).tick = s.tick := by
  induction xs generalizing s with
  | nil => exact ⟨rfl, rfl⟩
  | cons x xs ih => exact ⟨(ih _).1.trans (h s x).1, (ih _).2.trans (h s x).2⟩

theorem serveSession_choices (cif : List Soft) (s : State) (id : Fin 64) :
    (serveSession cif s id).turns = s.turns ∧ (serveSession cif s id).tick = s.tick := by
  unfold serveSession
  split <;> exact ⟨rfl, rfl⟩

theorem cifProcess_choices (cif : List Soft) (s : State) :
    (cifProcess cif s).turns = s.turns ∧ (cifProcess cif s).tick = s.tick :=
  foldl_choices (serveSession_choices cif) _ (cifStart s)

theorem fibReport_choices (i : Nat) (fib : List Byte) (s : State) :
    (fibReport i fib s).turns = s.turns ∧ (fibReport i fib s).tick = s.tick := by
  simp [fibReport]

theorem ficDecode_choices (f : List Soft) (s : State) :
    (ficDecode f s).turns = s.turns ∧ (ficDecode f s).tick = s.tick :=
  foldl_choices (fun s _ => foldl_choices (fun s _ => fibReport_choices _ _ s) _ s) _ s

theorem endOfFrame_choices (soft : List Soft) (s : State) :
    (endOfFrame soft s).turns = s.turns ∧ (endOfFrame soft s).tick = s.tick := by
  have h := foldl_choices (fun t i => cifProcess_choices (slice s.sym.mscbuf (i * cifBits) ((i + 1) * cifBits)) t)
    (List.range (ficDecode s.sym.ficbuf s).cfg.cifsPerFrame) (ficDecode s.sym.ficbuf s)
  have g := ficDecode_choices s.sym.ficbuf s
  simp only [endOfFrame, frameClose_turns, frameClose_tick, raiseIf_turns, raiseIf_tick, cifsProcess]
  exact ⟨h.1.trans g.1, h.2.trans g.2⟩

theorem symbolStep_choices (s : State) : (symbolStep s).turns = s.turns ∧ (symbolStep s).tick = s.tick := by
  have h : ∀ l y soft, (appendSoft l y soft (consume s.cfg.tS s)).turns = s.turns ∧
      (appendSoft l y soft (consume s.cfg.tS s)).tick = s.tick := by
    intro l y soft
    unfold appendSoft
    split <;> exact ⟨rfl, rfl⟩
  simp only [symbolStep]
  split
  · exact h _ _ _
  · exact ⟨(endOfFrame_choices _ _).1.trans (h _ _ _).1, (endOfFrame_choices _ _).2.trans (h _ _ _).2⟩

theorem raiseTii_choices (v : List Word) (s : State) :
    (raiseTii v s).turns = s.turns ∧ (raiseTii v s).tick = s.tick := by
  unfold raiseTii
  split
  · split <;> exact ⟨rfl, rfl⟩
  · exact ⟨rfl, rfl⟩

theorem acquire_choices (s : State) : (acquire s).turns = s.turns ∧ (acquire s).tick = s.tick := by
  simp only [acquire]
  split
  · simp [acquireOk]
  · simp only [acquireFail]; split <;> simp

theorem track_choices (s : State) : (track s).turns = s.turns ∧ (track s).tick = s.tick := by
  simp only [track]
  split
  · simp [trackOk, headDiagnostics, raiseTii_choices]
  · simp only [trackFail]; split <;> simp [headDiagnostics, raiseTii_choices]

theorem nullSearch_choices (w : Word) (rest : List Word) (s : State) :
    (nullSearch w rest s).turns = s.turns ∧ (nullSearch w rest s).tick = s.tick := by
  simp only [nullSearch]
  split
  · simp only [nullFound]; split <;> simp
  · split <;> simp

/-- A step of `PIPE` leaves the choices still to come. -/
theorem pipeStep_choices (s : State) : (pipeStep s).turns = s.turns ∧ (pipeStep s).tick = s.tick := by
  rcases pipeStep_cases s with h | ⟨-, -, h⟩ | ⟨w, rest, -, -, -, h⟩ | ⟨-, -, -, h⟩ | ⟨-, -, -, -, h⟩ |
    ⟨-, -, -, -, -, h⟩ <;> rw [h]
  · exact ⟨rfl, rfl⟩
  · simp [beginStep]
  · exact nullSearch_choices w rest s
  · exact acquire_choices s
  · exact track_choices s
  · exact symbolStep_choices s

end Sys2Proof.Machine
end

