-- ==== Sys2Proof/Tests/Slice0.lean ====
section
/-! SUPPORT. Tests: ill-formed terms, decoding of written words, single steps with the vectors of
95_test_vectors.md, and for every obligation with hypotheses the states and operands that meet them. -/

namespace Sys2Proof.Tests

-- One theorem after another: checking them all at once takes a thread, and its stack, for each.
set_option Elab.async false

open Sys2Proof.Machine

/-! ### Well-formedness: each check refuses an ill-formed term (R92) -/

theorem test_ill_formed_ldpl : ¬ Instr.WellFormed (.ldpl 8 1) := by decide
theorem test_ill_formed_ldph : ¬ Instr.WellFormed (.ldph 255 0) := by decide
theorem test_ill_formed_rdp : ¬ Instr.WellFormed (.rdp 8) := by decide
theorem test_ill_formed_sopen : ¬ Instr.WellFormed (.sopen 64) := by decide
theorem test_ill_formed_sclose : ¬ Instr.WellFormed (.sclose 64) := by decide
theorem test_ill_formed_sstat : ¬ Instr.WellFormed (.sstat 255) := by decide
theorem test_well_formed_bounds : Instr.WellFormed (.rdp 7) ∧ Instr.WellFormed (.sopen 63) := by decide

/-! ### Decoding: the words of V40.1 and V40.2, and of P1 to P4 -/

theorem test_decode_nop : decode 0x00000000 = .command .nop := by decide
theorem test_decode_restart0 : decode 0x01000000 = .command (.restart false) := by decide
theorem test_decode_restart1 : decode 0x01000001 = .command (.restart true) := by decide
theorem test_decode_stop : decode 0x02000000 = .command .stop := by decide
theorem test_decode_ldpl : decode 0x0302002D = .command (.ldpl 2 0x002D) := by decide
theorem test_decode_ldpl_last : decode 0x0307FFFF = .command (.ldpl 7 0xFFFF) := by decide
theorem test_decode_ldph : decode 0x04010048 = .command (.ldph 1 0x0048) := by decide
theorem test_decode_rdp : decode 0x05070000 = .command (.rdp 7) := by decide
theorem test_decode_wrcsr : decode 0x06010000 = .command (.wrcsr 0x01) := by decide
theorem test_decode_wrcsr_any : decode 0x06100000 = .command (.wrcsr 0x10) := by decide
theorem test_decode_rdcsr : decode 0x07020000 = .command (.rdcsr 0x02) := by decide
theorem test_decode_sopen : decode 0x08050000 = .command (.sopen 5) := by decide
theorem test_decode_sclose : decode 0x09050000 = .command (.sclose 5) := by decide
theorem test_decode_sstat : decode 0x0A3F0000 = .command (.sstat 63) := by decide
theorem test_decode_illegal : decode 0x0B000000 = .illegal ∧ decode 0xFFFFFFFF = .illegal := by decide
theorem test_decode_malformed : [0x00000001, 0x00010000, 0x01000002, 0x01010000, 0x02000001, 0x03080001, 0x04FF0000,
    0x05010001, 0x06010001, 0x08400000, 0x0A050001].map decode = List.replicate 11 .malformed := by decide
theorem test_table_word : decodeTableWord 32 0x0302002D = some (.ldpl 2 0x002D) := by decide

/-! ### Small states -/

/-- A small legal configuration: `T_U = 8`, `K = 4`, two symbols a frame, no CIF. -/
def toy : Cfg where
  mode := 1
  symbols := 2
  carriers := 4
  tNull := 4
  log2Tu := 3
  tG := 2
  ficSyms := 1
  ficBlocks := 4
  ficPunct := 2
  ficInfo := 0
  fibsPerBlock := 0
  cifsPerFrame := 0
  rbDepth := 14
  wNull := 2
  lvlShift := 1
  nWarm := 2
  dipNum := 1
  dipDen := 2
  endNum := 3
  endDen := 4
  nullTimeout := 3
  dipMax := 4
  prsSkip := 1
  sMax := 1
  corrNum := 16
  corrDen := 1
  nLoss := 2
  prsFailMax := 2
  cpLen := 1
  loopNum := 1
  loopDen := 8
  nullCapOfs := 0
  nullCapLen := 2
  constDecim := 2
  kconv := 2
  polys := [[0, 1], [0], [0, 1], [0]]
  piTable := piDefault
  piTail := [true, true, false, false]
  ficSegs := []
  fmap := [-2, 1, 2, -1]
  prsq := [0, 1, 3, 2]

/-- The toy's reset state. -/
def t0 : State := State.resetWith toy

/-- A running state at a place of the synchroniser, with zero samples waiting and `PIPE`'s turn next. -/
def at_ (y : SyncState) (idx : BitVec 8) (n : Nat) : State :=
  { t0 with
    flags := ⟨true, false, false, false⟩
    sync := y
    sym := { t0.sym with symIdx := idx }
    rb := List.replicate n 0
    turns := [.pipe] }

/-- The registers of the example of R118. -/
def p118 : Vector Word 8 := #v[0x00000232, 0x00300000, 0x0008002D, 0x00070003, 0, 0, 0, 0]

/-- The descriptor of the example of R118. -/
def d118 : Descriptor := descriptor p118

/-- A state with session 5 open as in the example of R118. -/
def open5 : State := writeSlot 5 (some (openSession State.reset.cfg d118)) { State.reset with p := p118 }

/-- A state in which `CMD` is to serve one word. -/
def serving (w : Word) (s : State) : State := { s with cmdq := [w], turns := [.cmd] }

/-- The last response of an outcome. -/
def answer : Host.Outcome State Fault Refusal → Option Response
  | .next t => t.rsp.getLast?
  | .fault _ => none
  | .refused _ => none

/-- The event words of an outcome. -/
def eventWords : Host.Outcome State Fault Refusal → List (List Word)
  | .next t => t.evt.map Event.words
  | .fault _ => []
  | .refused _ => []

/-! ### One step per command (V40.1 to V40.5, P1 to P4) -/

theorem test_nop : answer (step (serving 0x00000000 State.reset)) = some ⟨0x00, 0x00, 0⟩ := by decide +kernel
theorem test_restart : (answer (exec (.restart true) t0), eventWords (exec (.restart true) (at_ .acquiringNull 1 0))) =
    (some ⟨0x01, 0x00, 0⟩, [[0x01000001, 0]]) := by decide +kernel
theorem test_stop : answer (exec .stop t0) = some ⟨0x02, 0x00, 0⟩ := by decide +kernel
theorem test_ldpl_clears_high : answer (exec (.ldpl 1 0x0030) { t0 with p := Vector.replicate 8 0xFFFFFFFF }) =
    some ⟨0x03, 0x00, 0x00000030⟩ := by decide +kernel
theorem test_ldph_keeps_low : answer (exec (.ldph 1 0x0048) { t0 with p := Vector.replicate 8 0x00000030 }) =
    some ⟨0x04, 0x00, 0x00480030⟩ := by decide +kernel
theorem test_rdp : answer (exec (.rdp 1) open5) = some ⟨0x05, 0x00, 0x00300000⟩ := by decide +kernel
theorem test_wrcsr : answer (exec (.wrcsr 0x01) { t0 with p := Vector.replicate 8 0xFFFFFFFF }) =
    some ⟨0x06, 0x00, 0x0000000F⟩ := by decide +kernel
theorem test_wrcsr_refused : [answer (exec (.wrcsr 0x02) t0), answer (exec (.wrcsr 0x10) t0)] =
    [some ⟨0x06, 0x07, 0⟩, some ⟨0x06, 0x08, 0⟩] := by decide +kernel
theorem test_rdcsr : [answer (exec (.rdcsr 0x02) t0), answer (exec (.rdcsr 0xFF) t0)] =
    [some ⟨0x07, 0x00, 0x00000100⟩, some ⟨0x07, 0x08, 0⟩] := by decide +kernel
theorem test_rdcsr_sessions : answer (exec (.rdcsr 0x0D) open5) = some ⟨0x07, 0x00, 1⟩ := by decide +kernel
theorem test_sopen : [answer (exec (.sopen 5) { State.reset with p := p118 }), answer (exec (.sopen 5) open5)] =
    [some ⟨0x08, 0x00, 0⟩, some ⟨0x08, 0x01, 0⟩] := by decide +kernel
theorem test_sopen_overlap : answer (exec (.sopen 6) { open5 with p := p118.set 1 0x00100020 }) =
    some ⟨0x08, 0x03, 5⟩ := by decide +kernel
theorem test_sclose : [answer (exec (.sclose 5) open5), answer (exec (.sclose 6) open5)] =
    [some ⟨0x09, 0x00, 0⟩, some ⟨0x09, 0x02, 0⟩] := by decide +kernel
theorem test_sstat : answer (exec (.sstat 5) open5) = some ⟨0x0A, 0x00, 0x00000005⟩ := by decide +kernel
theorem test_illegal_word : answer (step (serving 0x0B000000 t0)) = some ⟨0x0B, 0x06, 0x0B000000⟩ := by decide +kernel
theorem test_malformed_word : answer (step (serving 0x03080001 t0)) = some ⟨0x03, 0x05, 0x03080001⟩ := by decide +kernel

/-! ### The data path on fixed values -/

/-- R145: energies of V41.1. -/
theorem test_energy : [0x0000000A, 0x00080006, 0xFFFF0001, 0x80008000].map energy = [100, 100, 2, 2147483648] := by
  decide +kernel
/-- R184: V42.1, Mode I. -/
theorem test_dphi : [dphi cfgModeI ⟨1, 0, 0, 0, 0⟩, dphi cfgModeI ⟨-1, 16384, 0, 0, 0⟩,
    dphi cfgModeI ⟨0, -32768, 0, 0, 0⟩] = [0x00200000, 0xFFE80000, 0xFFF00000] := by decide +kernel
/-- R163: V41.8. -/
theorem test_carry : [carry 3 33000, carry (-2) (-36096), carry 0 32768] =
    [(4, -32536), (-3, 29440), (0, 32768)] := by decide +kernel
/-- R187: its examples. -/
theorem test_softpair : [softpair ⟨-100, 100⟩, softpair ⟨-3, -4⟩, softpair ⟨1000, 0⟩, softpair ⟨5, -1⟩] =
    [(63, -63), (54, 72), (-127, 0), (-105, 21)] := by decide +kernel
/-- R271: the first 16 bytes of the sequence. -/
theorem test_prbs : packBytes (prbsFrom prbsStart 128) =
    [0x07, 0xBE, 0x2E, 0x64, 0x12, 0x9D, 0xA3, 0xCF, 0x9B, 0x15, 0x23, 0x8D, 0xAB, 0x89, 0x88, 0x80] := by
  decide +kernel
/-- R275, R278: check values. -/
theorem test_crc : crc16 [0x31, 0x32, 0x33, 0x34, 0x35, 0x36, 0x37, 0x38, 0x39] = 0xD64E ∧
    fire16 [0x00, 0x40, 0x0B, 0x4C, 0, 0, 0, 0, 0] = 0x6694 := by decide +kernel
/-- R285: check values. -/
theorem test_field : gmul 0x53 0xCA = 0x8F ∧ gmul 0xFF 0xFF = 0xE2 ∧ alphaPow 100 = 0x11 := by decide +kernel
/-- R211: the first 32 bits of its second example. -/
theorem test_encoder : ((convEncode cfgModeI
    [true, false, true, true, false, false, true, false, true]).take 32) =
    [true, true, true, true, false, true, true, false, false, false, true, false, false, true, false, false,
     true, false, false, true, true, false, false, true, true, true, true, true, true, true, false, true] := by
  decide +kernel
/-- R68: V40.7. -/
theorem test_pack_words : packWords [0x66, 0x94, 0x00, 0x40, 0x0B, 0x4C] = [0x40009466, 0x00004C0B] := by decide +kernel
/-- R98: headers of V40.6. -/
theorem test_event_words : [evFicCrc true 5, evFicCrc false 11, evRsErrors 5 2 0, evMsg true 0x01].map Event.words =
    [[0x09000001, 0x00000501], [0x09000001, 0x00000B00], [0x0C050002, 2, 0], [0x10000001, 0x00000101]] := by
  decide +kernel
/-- R147: the third zero sample of the toy's search raises `EV_PRESENCE(0)`. -/
theorem test_timeout : eventWords (step { at_ .acquiringNull 1 1 with det := { t0.det with nsCount := 2 } }) =
    [[0x04000001, 0]] := by decide +kernel
/-- R318: the three records of a source failure. -/
theorem test_source_failure : ((srcFailStep { at_ .synchronized 2 0 with
    flags := ⟨true, true, false, true⟩ }).evt.map Event.words) =
    [[0x10000001, 0x00000101], [0x01000001, 0], [0x04000001, 0]] := by decide +kernel

/-! ### Hypotheses that can be met: one theorem per obligation that has any -/

theorem toy_wellFormed : toy.WellFormed := by decide +kernel

theorem modeI_codeOk : cfgModeI.CodeOk := by decide +kernel

theorem witness_StepRunsDecodedCommand : chosenTurn (serving 0x02000000 t0) = .cmd ∧
    (serving 0x02000000 t0).cmdq = 0x02000000 :: [] ∧ decode 0x02000000 = .command .stop ∧
    (serving 0x02000000 t0).turns = .cmd :: [] := by decide

theorem witness_OtherWordsRefused : chosenTurn (serving 0x0B000000 t0) = .cmd ∧
    (serving 0x0B000000 t0).cmdq = 0x0B000000 :: [] ∧ decode 0x0B000000 = .illegal ∧
    chosenTurn (serving 0x01000002 t0) = .cmd ∧ (serving 0x01000002 t0).cmdq = 0x01000002 :: [] ∧
    decode 0x01000002 = .malformed := by decide

theorem witness_LdplCompletes : (0x00 : BitVec 8).toNat < 8 ∧ (0x07 : BitVec 8).toNat < 8 ∧
    answer (exec (.ldpl 7 0xFFFF) t0) = some ⟨0x03, 0x00, 0x0000FFFF⟩ := by decide +kernel

theorem witness_LdphCompletes : (0x00 : BitVec 8).toNat < 8 ∧ (0x07 : BitVec 8).toNat < 8 ∧
    answer (exec (.ldph 7 0xFFFF) t0) = some ⟨0x04, 0x00, 0xFFFF0000⟩ := by decide +kernel

theorem witness_RdpCompletes : (0x00 : BitVec 8).toNat < 8 ∧ (0x07 : BitVec 8).toNat < 8 ∧
    answer (exec (.rdp 7) t0) = some ⟨0x05, 0x00, 0⟩ := by decide +kernel

/-- The indices at which the three clauses meet: 0x10; 0x00, 0x02 and 0x0F; 0x01. -/
theorem witness_WrcsrCompletes : 0x0F < (0x10 : BitVec 8).toNat ∧
    (∀ a ∈ [(0x00 : BitVec 8), 0x02, 0x0F], a.toNat ≤ 0x0F ∧ a ≠ 0x01) ∧
    [0x10, 0x0F, 0x02, 0x00, 0x01].map (fun a => (answer (exec (.wrcsr a) t0)).map (·.status)) =
      [some 0x08, some 0x07, some 0x07, some 0x07, some 0x00] := by decide +kernel

/-- Both sides of the index bound, and each of the sixteen indices answers. -/
theorem witness_RdcsrCompletes : 0x0F < (0x10 : BitVec 8).toNat ∧ (0x0F : BitVec 8).toNat ≤ 0x0F ∧
    (answer (exec (.rdcsr 0x10) t0)).map (·.status) = some 0x08 ∧
    (∀ k ∈ List.range 16, (answer (exec (.rdcsr (BitVec.ofNat 8 k)) t0)).map (·.status) = some 0x00) ∧
    answer (exec (.rdcsr 0x01) { t0 with ctrl := ⟨true, false, true, false⟩ }) = some ⟨0x07, 0x00, 0x5⟩ ∧
    answer (exec (.rdcsr 0x02) (at_ .synchronized 4 0)) = some ⟨0x07, 0x00, 0x0000040B⟩ := by decide +kernel

/-- R40: each field alone, all its bits set. -/
theorem test_descriptor : (descriptor #v[0x00000703, 0x03FF0000, 0x001F0000, 0, 0, 0x0000FFFF, 0, 0]) =
    ⟨3, false, false, false, 7, 0, 0x3FF, #v[⟨0, 0x1F⟩, ⟨0, 0⟩, ⟨0, 0⟩, ⟨0xFFFF, 0⟩]⟩ := by decide

/-- `P` with a range of `size` units from `start`. -/
def pRange (start size : BitVec 16) : Vector Word 8 := p118.set 1 (size ++ start)

/-- Open slot; empty range; a range one unit past the CIF; a range whose last unit is session 5's first neighbour
inside it (unit 47), and no lower slot open. -/
theorem witness_SopenRefuses : (5#8).toNat < 64 ∧ slot open5 5 = some (openSession State.reset.cfg d118) ∧
    slot t0 63 = none ∧ (descriptor (pRange 10 0)).sizeCu = 0 ∧
    864 < (descriptor (pRange 855 10)).startCu.toNat + (descriptor (pRange 855 10)).sizeCu.toNat ∧
    (descriptor (pRange 47 1)).Inside ∧ ¬ (descriptor (pRange 47 1)).Apart d118 ∧
    (∀ o : Fin 64, o < 5 → slot { open5 with p := pRange 47 1 } o = none) ∧
    [exec (.sopen 5) open5, exec (.sopen 63) { t0 with p := pRange 10 0 },
      exec (.sopen 63) { t0 with p := pRange 855 10 }, exec (.sopen 6) { open5 with p := pRange 47 1 }].map answer =
      [some ⟨0x08, 0x01, 0⟩, some ⟨0x08, 0x04, 0⟩, some ⟨0x08, 0x04, 0⟩, some ⟨0x08, 0x03, 5⟩] := by
  refine ⟨by decide, rfl, by decide +kernel, by decide, by decide, by unfold Descriptor.Inside; decide,
    by unfold Descriptor.Apart; decide, by decide +kernel, by decide +kernel⟩

/-- The state `open5` has no other open slot. -/
theorem open5_slots (id : Fin 64) (x : Session) (p : Vector Word 8) (h : slot { open5 with p := p } id = some x) :
    id = 5 ∧ x = openSession State.reset.cfg d118 := by
  by_cases e : id = 5
  · subst e; exact ⟨rfl, (Option.some.inj h).symm⟩
  · have hn : slot { open5 with p := p } id = none := by
      have := slot_writeSlot_other { State.reset with p := p118 } 5 id
        (some (openSession State.reset.cfg d118)) (fun e' => e e'.symm)
      change slot open5 id = none
      rw [open5, this]
      simp [slot, State.reset, State.resetWith]
    rw [hn] at h; cases h

/-- The range next to session 5's, unit 48, is free; so is the last unit of the CIF. -/
theorem witness_SopenOpens : (63#8).toNat < 64 ∧
    (∀ q ∈ [pRange 48 1, pRange 863 1], slot { open5 with p := q } 63 = none ∧ (descriptor q).Inside ∧
      ∀ o x, slot { open5 with p := q } o = some x → (descriptor q).Apart x.desc) ∧
    answer (exec (.sopen 63) { open5 with p := pRange 863 1 }) = some ⟨0x08, 0x00, 0x05⟩ := by
  refine ⟨by decide, ?_, by decide +kernel⟩
  intro q hq
  simp only [List.mem_cons, List.not_mem_nil, or_false] at hq
  rcases hq with rfl | rfl <;> refine ⟨rfl, by unfold Descriptor.Inside; decide, ?_⟩ <;>
    (intro o x h; rw [(open5_slots o x _ h).2]; unfold Descriptor.Apart; decide)

/-- The rows of V40.4: each code, and 0, is the answer somewhere. -/
theorem witness_CheckDescriptorOrder :
    [#v[0x00000032, 0x00300000, 0, 0, 0, 0, 0, 0], #v[0x00000532, 0x00300000, 0, 0, 0, 0, 0, 0],
     #v[0x00000132, 0x00300000, 0x0000002D, 0, 0, 0, 0, 0], #v[0x00000132, 0x00300000, 0x0019002D, 0, 0, 0, 0, 0],
     #v[0x00000132, 0x00300000, 0x00080000, 0, 0, 0, 0, 0], #v[0x00000233, 0x00300000, 0x0008002D, 0x00070003, 0, 0, 0, 0],
     #v[0x00000232, 0x00310000, 0x0008002D, 0x00070003, 0, 0, 0, 0],
     #v[0x00000212, 0x00070000, 0x00080006, 0x00050001, 0, 0, 0, 0],
     #v[0x00000211, 0x00070000, 0x00080006, 0x00050001, 0, 0, 0, 0], p118].map
      (fun p => checkDescriptor cfgModeI (descriptor p)) =
    [0x01, 0x01, 0x02, 0x02, 0x03, 0x04, 0x05, 0x06, 0x00, 0x00] := by decide +kernel

theorem witness_ScloseCompletes : (5#8).toNat < 64 ∧ slot open5 5 = some (openSession State.reset.cfg d118) ∧
    slot open5 63 = none := ⟨by decide, rfl, rfl⟩

theorem witness_SstatCompletes : (63#8).toNat < 64 ∧ slot open5 63 = none ∧
    slot open5 5 = some (openSession State.reset.cfg d118) := ⟨by decide, rfl, rfl⟩

theorem witness_OutOfRangeIndexTerms : ¬ Instr.WellFormed (.ldpl 8 0) ∧ ¬ Instr.WellFormed (.sstat 64) ∧
    answer (exec (.sstat 64) t0) = some ⟨0x0A, 0x05, 0x0A400000⟩ := by decide +kernel

theorem witness_CommandFrame : exec .nop t0 = .next { t0 with rsp := [⟨0x00, 0x00, 0⟩] } := rfl

theorem witness_EventsOnlyAppend : step (at_ .unsynchronized 1 0) =
    .next (beginStep { at_ .unsynchronized 1 0 with turns := [] }) := rfl

/-- A slot open before and after a step. -/
theorem witness_DescriptorImmutable : step (serving 0x00000000 open5) =
    .next { serving 0x00000000 open5 with cmdq := [], turns := [], rsp := [⟨0x00, 0x00, 0⟩] } ∧
    slot (serving 0x00000000 open5) 5 = some (openSession State.reset.cfg d118) := ⟨rfl, rfl⟩

/-- Changes of `SYNC_STATE`: the begin step, a failed acquisition on silence, a `RESTART`, a source failure, the last bad
frame, the end of a null symbol. -/
theorem witness_SyncTransitions :
    [at_ .unsynchronized 1 0, at_ .acquiringPhaseReference 1 9, serving 0x01000000 (at_ .synchronized 2 0),
     { at_ .synchronized 2 0 with turns := [.fail] },
     { at_ .synchronized 1 14 with cnt := { t0.cnt with badFrames := 1 } },
     { at_ .acquiringNull 1 0 with
       rb := [0x0000000A], det := { t0.det with nullPhase := .inDip, slevel := 40, lvlAge := 2 } }].map
      (fun s => match step s with
        | .next t => (s.sync.code, t.sync.code)
        | _ => (0, 0)) =
    [(0, 1), (2, 1), (3, 0), (3, 0), (3, 0), (1, 2)] := by decide +kernel

theorem acquire_synchronizes (s : State) (h : qualityOk s.cfg (acquireSpectrum s) = true) :
    (acquire s).sync = .synchronized := by
  have h' : qualityOk s.cfg (fft s.cfg (window s.cfg (consumedRot (acquireLen s.cfg) s))) = true := h
  simp only [acquire, h', if_true]
  simp [acquireOk]

/-- The quality test of an acquisition on silence fails; that one passes is an assumption on the free functions (log 5),
and under it the step enters `Synchronized`. -/
theorem witness_OnlyQualitySynchronizes :
    (∃ t, step (at_ .acquiringPhaseReference 1 9) = .next t ∧ t.sync = .acquiringNull) ∧
    ∀ s : State, s.turns = [.pipe] → s.flags.run = true → s.sync = .acquiringPhaseReference →
      acquireLen s.cfg ≤ s.rb.length → qualityOk s.cfg (acquireSpectrum s) = true →
      ∃ t, step s = .next t ∧ t.sync = .synchronized := by
  refine ⟨⟨_, rfl, by decide +kernel⟩, fun s h1 h2 h3 h4 h5 => ?_⟩
  refine ⟨pipeStep { s with turns := [] }, by simp [step, chosenTurn, afterChoice, h1, takeTurn], ?_⟩
  have e : pipeStep { s with turns := [] } = acquire { s with turns := [] } := by
    simp [pipeStep, pipeRun, h2, h3, h4]
  rw [e]
  exact acquire_synchronizes _ h5

theorem witness_SyncEventOnChange : ∃ t, step (at_ .unsynchronized 1 0) = .next t ∧ t.sync = .acquiringNull ∧
    step (at_ .acquiringNull 1 0) = .next { at_ .acquiringNull 1 0 with turns := [] } := ⟨_, rfl, rfl, rfl⟩

/-- A null symbol found raises the bit; a timeout with the bit already 0. -/
theorem witness_PresenceEvents :
    (∃ t, step { at_ .acquiringNull 1 0 with
      rb := [0x0000000A], det := { t0.det with nullPhase := .inDip, slevel := 40, lvlAge := 2 } } = .next t ∧
      t.flags.presence = true) ∧
    (∃ t, step { at_ .acquiringNull 1 1 with det := { t0.det with nsCount := 2 } } = .next t ∧
      t.flags.presence = false ∧ t.evt ≠ []) ∧
    nullEnds toy (searchSense toy 0 { t0.det with nsCount := 2 }) = false ∧
    toy.nullTimeout ≤ ((2 : Word) + 1).toNat :=
  ⟨⟨_, rfl, by decide +kernel⟩, ⟨_, rfl, by decide +kernel, by decide +kernel⟩, by decide +kernel, by decide⟩

/-- Silence with no sample, below the limit and at it. -/
theorem witness_SilentSearch : (at_ .acquiringNull 1 0).Silent ∧ (at_ .acquiringNull 1 1).Silent ∧
    State.Silent { at_ .acquiringNull 1 1 with det := { t0.det with nsCount := 2 } } := by
  have h : ∀ e ∈ List.replicate 2 0, e = 0 := by decide
  exact ⟨⟨rfl, rfl, rfl, h, rfl, rfl, by simp [at_]⟩, ⟨rfl, rfl, rfl, h, rfl, rfl, by simp [at_]⟩,
    ⟨rfl, rfl, rfl, h, rfl, rfl, by simp [at_]⟩⟩

theorem noSlots (s : State) (h : s.sess = Vector.replicate 64 none) (id : Fin 64) : slot s id = none := by
  simp [slot, h]

/-- A running toy in the middle of a frame meets the invariants and takes a step. -/
theorem witness_DetectorInvariantKept : (at_ .synchronized 2 10).cfg.WellFormed ∧ (at_ .synchronized 2 10).DetectorOk ∧
    (at_ .synchronized 2 10).Goes :=
  ⟨toy_wellFormed, ⟨rfl, by decide +kernel, rfl, by decide, by decide, by decide⟩, ⟨_, rfl⟩⟩

theorem witness_FrameInvariantKept : (at_ .synchronized 2 10).cfg.WellFormed ∧ (at_ .synchronized 2 10).FrameOk ∧
    (at_ .synchronized 2 10).Goes :=
  ⟨toy_wellFormed, ⟨fun h => absurd rfl h, by decide, by decide, by decide, by decide, by decide⟩, ⟨_, rfl⟩⟩

theorem witness_RegisterBoundsKept : (at_ .synchronized 1 14).cfg.WellFormed ∧ (at_ .synchronized 1 14).BoundsOk ∧
    (at_ .synchronized 1 14).Goes :=
  ⟨toy_wellFormed, ⟨by decide, by decide, by decide, by decide, by decide, by decide⟩, ⟨_, rfl⟩⟩

theorem witness_SoftBitRangeKept : State.SoftsOk { at_ .synchronized 2 10 with
      sym := { t0.sym with symIdx := 2, ficbuf := [127, -127], mscbuf := [0] } } ∧
    State.Goes { at_ .synchronized 2 10 with
      sym := { t0.sym with symIdx := 2, ficbuf := [127, -127], mscbuf := [0] } } := by
  refine ⟨⟨by unfold SoftOk; decide, by unfold SoftOk; decide, ?_⟩, ⟨_, rfl⟩⟩
  intro id y v x h
  rw [noSlots _ rfl] at h; cases h

/-- One session open, and a step is taken. -/
theorem witness_SessionTableInvariantKept : (serving 0x08060000 open5).SlotsOk ∧ (serving 0x08060000 open5).Goes := by
  refine ⟨⟨?_, ?_, ?_⟩, ⟨_, rfl⟩⟩
  · intro id x h
    rw [(open5_slots id x p118 h).2]; unfold Descriptor.Inside; decide
  · intro a b x y hab ha hb
    exact absurd ((open5_slots a x p118 ha).1.trans (open5_slots b y p118 hb).1.symm) hab
  · intro id x h
    rw [(open5_slots id x p118 h).2]
    exact ⟨rfl, rfl, rfl, by decide, by decide, rfl, by decide, by decide⟩

theorem witness_ResetMeetsInvariants : toy.WellFormed := toy_wellFormed

theorem witness_ArgmaxSmallestShift : (-(toy.sMax : Int) ≤ -1 ∧ (-1 : Int) ≤ toy.sMax) ∧
    (-(toy.sMax : Int) ≤ 1 ∧ (1 : Int) ≤ toy.sMax) := by decide

theorem witness_ZeroSpectrumFails : ∀ z ∈ List.replicate 8 CInt.zero, z = ⟨0, 0⟩ := by decide

/-- The spectrum of R157: amplitude 10, no shift. -/
def y157 : List CInt := [⟨0, 0⟩, ⟨0, -10⟩, ⟨-10, 0⟩, ⟨0, 0⟩, ⟨0, 0⟩, ⟨0, 0⟩, ⟨10, 0⟩, ⟨0, 10⟩]

theorem witness_IdealReferencePeak : toy.carriers % 2 = 0 ∧ 2 ≤ toy.carriers ∧
    (∀ k ∈ carrierList toy.carriers, binAt toy y157 (k + 0) = CInt.mul ⟨10, 0⟩ (jpow (prsq toy k))) ∧
    correlation toy y157 0 = ⟨200, 0⟩ ∧ shat toy y157 = 0 ∧ qualityOk toy y157 = true := by decide +kernel

theorem witness_CarryKeepsTotal : ∀ f ∈ [(-65536 : Int), -32769, -32768, 32768, 32769, 65536],
    -65536 ≤ f ∧ f ≤ 65536 := by decide

theorem witness_FrequencyLoop : 0 < toy.loopNum ∧ toy.loopNum ≤ toy.loopDen ∧
    (∀ f ∈ [(0xFFFF8000 : Word), 32768, 0], -32768 ≤ f.toInt ∧ f.toInt ≤ 32768) := by
  refine ⟨by decide, by decide, ?_⟩
  simp only [List.mem_cons, List.not_mem_nil, or_false, forall_eq_or_imp, forall_eq]
  decide

theorem witness_PhaseAccumulator : 9 ≤ (at_ .synchronized 2 9).rb.length ∧ (at_ .synchronized 2 9).rb[8]? = some 0 ∧
    (at_ .synchronized 2 9).freq = ⟨0, 0, 0, 0, 0⟩ ∧ toy.log2Tu ≤ 16 := by decide

/-- A toy with four symbols a frame, two of them FIC symbols: `SYM_IDX` 2 and 3. -/
def toy4 : Cfg := { toy with symbols := 4 }

theorem witness_SymbolStepAdvances : ∀ l ∈ [(2 : BitVec 8), 3],
    2 ≤ l.toNat ∧ l.toNat < toy4.symbols ∧ toy4.symbols ≤ 255 ∧ toy4.tS ≤ (List.replicate 10 (0 : Word)).length ∧
    (pipeStep { at_ .synchronized l 10 with cfg := toy4 }).sym.symIdx = l + 1 := by decide +kernel

theorem witness_FrameCompletion : (at_ .synchronized 2 10).sym.symIdx.toNat = toy.symbols ∧
    toy.tS ≤ (at_ .synchronized 2 10).rb.length ∧
    (pipeStep (at_ .synchronized 2 10)).cnt.frameCnt = 1 := by decide +kernel

/-- Room, no room, and a failed source. -/
theorem witness_SourceSteps : (at_ .acquiringNull 1 13).flags.srcFail = false ∧
    (at_ .acquiringNull 1 13).rb.length < toy.rbDepth ∧ toy.rbDepth ≤ (at_ .acquiringNull 1 14).rb.length ∧
    1 ≤ 1 ∧ (sourceFailure (at_ .acquiringNull 1 13)).flags.srcFail = true := by decide +kernel

theorem witness_StartOnlyByRestart : (serving 0x01000001 t0).flags.run = false ∧ (serving 0x01000001 t0).Goes ∧
    chosenTurn (serving 0x01000001 t0) = .cmd ∧ (serving 0x01000001 t0).cmdq = 0x01000001 :: [] ∧
    decode 0x01000001 = .command (.restart true) ∧
    State.Goes { t0 with turns := [.push 7] } := ⟨rfl, ⟨_, rfl⟩, rfl, rfl, by decide, ⟨_, rfl⟩⟩

theorem witness_PipeTakesTableSamples : ∀ s ∈ [at_ .unsynchronized 1 0, at_ .acquiringNull 1 1,
      at_ .acquiringPhaseReference 1 9, at_ .synchronized 1 14, at_ .synchronized 2 10],
    s.flags.run = true ∧ (s.sync = .synchronized → 1 ≤ s.sym.symIdx.toNat ∧ s.sym.symIdx.toNat ≤ s.cfg.symbols) ∧
    samplesNeeded s = s.rb.length ∧ (samplesNeeded s ≠ 0 →
      pipeStep { s with rb := s.rb.drop 1 } = { s with rb := s.rb.drop 1 }) := by decide +kernel

/-- The good block of S1. -/
def blockS1 : List Byte := [0x05, 0x00, 0x10, 0x01, 0x00, 0x00, 0xFF] ++ List.replicate 23 0 ++ [0x5A, 0xCF]

theorem witness_CrcCatchesSingleBit : blockS1.length = 32 ∧ crc16Ok blockS1 = true ∧
    crc16Ok (blockS1.set 3 0x11) = false := by decide +kernel

/-- A legal code with constraint length 2, three information bits. -/
theorem witness_ViterbiMaximises : toy.CodeOk ∧ (List.replicate 16 (3 : Soft)).length = 4 * (3 + toy.kconv - 1) ∧
    (viterbi toy (List.replicate 16 3) 3).length = 3 := ⟨toy_wellFormed.2.2.1, by decide +kernel, by decide +kernel⟩

theorem witness_ViterbiSilence : toy.CodeOk ∧ cfgModeI.CodeOk := ⟨toy_wellFormed.2.2.1, modeI_codeOk⟩

/-- The schedule of V43.3, `((1, 8))` with 76 soft bits, and the indices 1 and 24. -/
theorem witness_DepunctureInverts : cfgModeI.CodeOk ∧
    (∀ g ∈ [(⟨1, 8⟩ : Segment), ⟨1, 1⟩, ⟨1, 24⟩], 1 ≤ g.pi ∧ g.pi ≤ 24) ∧
    (List.replicate 76 (1 : Soft)).length =
      (([(⟨1, 8⟩ : Segment)].map fun g => g.len * 4 * (8 + g.pi)).sum + cfgModeI.piTail.count true) ∧
    (keepMask cfgModeI [⟨1, 8⟩])[2]? = some false := ⟨modeI_codeOk, by decide, by decide +kernel, by decide +kernel⟩

theorem witness_ServingOrderIrrelevant : ([0, 63] : List (Fin 64)).Perm [63, 0] ∧ ([0, 63] : List (Fin 64)).Nodup := by
  decide

/-- A session of the toy without mismatch: type `t`, one unit, `NPUNCT = 62 + 2`. -/
def smallSession (t : BitVec 2) (tdi : Bool) (cnt : BitVec 5) (fill : BitVec 3) : Session :=
  { openSession toy ⟨t, false, tdi, false, 1, 0, 1, #v[⟨1, 8⟩, ⟨0, 0⟩, ⟨0, 0⟩, ⟨0, 0⟩]⟩ with
    mismatch := false, errcode := 0, tdiCnt := cnt, sfFill := fill }

/-- Every clause: a mismatch; 14 CIFs seen, and 15; each type; the superframe buffer at 3 and at 4. -/
theorem witness_SessionEventCounts :
    { smallSession 0 false 0 0 with mismatch := true }.mismatch = true ∧
    ¬ ((smallSession 0 true 14 0).desc.tdiEn = false ∨ 15 ≤ (smallSession 0 true 14 0).tdiCnt.toNat) ∧
    15 ≤ (smallSession 0 true 15 0).tdiCnt.toNat ∧ (smallSession 0 true 15 0).desc.type = 0 ∧
    (smallSession 1 false 0 0).desc.type = 1 ∧ (smallSession 2 false 0 3).desc.type = 2 ∧
    (smallSession 2 false 0 3).sfFill ≠ 4 ∧ (smallSession 2 false 0 4).sfFill = 4 ∧
    (smallSession 2 false 0 4).desc.tdiEn = false ∧ (smallSession 2 false 0 4).mismatch = false := by decide

/-- Vectors `n, n, …` sent with the delays of R244 to a session of 64 soft bits. -/
def sentVector (n : Nat) : List Soft := (List.range 64).map fun i => ((n - tdiDelay (i % 16) : Nat) : Soft)

/-- The session of `smallSession` after the vectors of CIFs 0 to `n`. -/
def pushed (n : Nat) : Session :=
  (List.range (n + 1)).foldl (fun z k => tdiPush (sentVector k) z) (smallSession 0 true 0 0)

/-- The hypotheses, and the session on both sides of the fifteenth CIF. -/
theorem witness_TdiInvertsInterleaver :
    (smallSession 0 true 0 0).tdiH = [] ∧ (smallSession 0 true 0 0).tdiCnt = 0 ∧
    (∀ n, (List.replicate 64 (n : Soft)).length = (smallSession 0 true 0 0).desc.nsoft) ∧
    (∀ n i : Nat, i < (smallSession 0 true 0 0).desc.nsoft → tdiDelay (i % 16) ≤ n →
      (sentVector n).getD i 0 = (List.replicate 64 ((n - tdiDelay (i % 16) : Nat) : Soft)).getD i 0) ∧
    tdiResult (pushed 14) = none ∧ tdiResult (pushed 15) = some (List.replicate 64 0) := by
  refine ⟨rfl, rfl, fun n => List.length_replicate, fun n i hi _ => ?_, by decide +kernel, by decide +kernel⟩
  change i < 64 at hi
  simp only [sentVector, List.getD_eq_getElem?_getD, List.getElem?_map, List.getElem?_range hi,
    List.getElem?_replicate, if_pos hi, Option.map_some, Option.getD_some]

/-- The ends of each clause: the start, the first bit that the recurrence gives, the last bit before a repetition. -/
theorem witness_DescramblerSequence : (0 : Nat) < 9 ∧ (8 : Nat) < 9 ∧ (9 : Nat) ≤ 9 ∧ (0 : Nat) < 1 ∧
    (prbsFrom prbsStart 10) = [false, false, false, false, false, true, true, true, true, false] ∧
    (descramble (List.replicate 16 false)).getD 5 false = true := by decide

/-- The four half-axes, the origin and a diagonal. -/
theorem witness_SoftpairRange :
    [softpair ⟨1, 0⟩, softpair ⟨-1, 0⟩, softpair ⟨0, 1⟩, softpair ⟨0, -1⟩, softpair ⟨0, 0⟩, softpair ⟨1, 1⟩] =
      [(-127, 0), (127, 0), (0, -127), (0, 127), (0, 0), (-63, -63)] := by decide +kernel

/-- `HOST`'s step stays enabled on every run; a word waits for `CMD`; the guaranteed turn of an agent may be any of its
own. -/
theorem witness_StepNeverStops : (∀ n, Enabled .host (after n t0)) ∧
    Enabled .cmd (serving 0x02000000 t0) ∧ (serving 0x02000000 t0).cmdq = 0x02000000 :: [] ∧
    Enabled .pipe (at_ .synchronized 2 10) ∧ ¬ Enabled .pipe (at_ .synchronized 2 9) ∧ Enabled .src t0 ∧
    (∀ w, turnOf .src (.push w) = .push w ∧ turnOf .host (.command w) = .command w) := by
  refine ⟨fun _ => trivial, by simp [Enabled, serving], rfl, ?_, ?_, rfl, fun w => ⟨rfl, rfl⟩⟩
  · exact ⟨rfl, fun _ => by decide, by decide⟩
  · exact fun h => absurd h.2.2 (by decide)

theorem gmul_zero (b : Byte) : gmul 0 b = 0 := by
  simp [gmul, gmulBits, xtime]
theorem evalHigh_zeros (x : Byte) : ∀ n, evalHigh (List.replicate n 0) x = 0
  | 0 => rfl
  | n + 1 => by
    have h := evalHigh_zeros x n
    simp only [evalHigh, List.replicate_succ, List.foldl_cons, gmul_zero] at h ⊢
    exact h
theorem zeros_isCodeWord : isCodeWord (List.replicate 120 0) = true := by
  have h : syndromes (List.replicate 120 0) = (List.range 10).map fun _ => 0 :=
    List.map_congr_left fun m _ => evalHigh_zeros _ _
  rw [isCodeWord, h]; decide

/-- The zero code word, received with no error and with five at both ends. -/
theorem witness_RsDecodeContract : isCodeWord (List.replicate 120 0) = true ∧
    distance (List.replicate 120 0) (List.replicate 120 0) ≤ 5 ∧
    distance ((List.replicate 5 0xFF) ++ List.replicate 115 0) (List.replicate 120 0) = 5 ∧
    ((List.replicate 5 0xFF) ++ List.replicate 115 (0 : Byte)).length = 120 :=
  ⟨zeros_isCodeWord, by decide +kernel, by decide +kernel, by decide +kernel⟩

/-- A superframe of zeros passes the Firecode; one whose header is not a code word fails. -/
theorem witness_SuperframeAttempt : firecodeOk (List.replicate 11 0) = true ∧
    firecodeOk ([0x66, 0x94, 0x00, 0x40, 0x0B, 0x4D] ++ List.replicate 5 0) = false ∧ (0 : Nat) < 1 ∧ (109 : Nat) < 110 := by
  decide +kernel

end Sys2Proof.Tests
end

section
/-! What the shared operations of a step do, said as equations for the whole state: every step of `PIPE` is a list of
records raised on a state with some fields replaced. -/

namespace Sys2Proof.Machine

set_option Elab.async false

/-! ### The records of the operations that announce a change -/

/-- The records of `setSync` (R178). -/
def syncRecords (old new : SyncState) : List Event := if old = new then [] else [evSyncState new]

/-- The records of `setPresence` (R179). -/
def presenceRecords (old new : Bool) : List Event := if old = new then [] else [evPresence new]

/-- The records of `freqReport` (R164). -/
def freqRecords (f : Corrector) : List Event :=
  if f.coarse = f.lastCoarse ∧ f.fine = f.lastFine then [] else [evFreqCorr f.fine f.coarse]

/-- The corrector after `freqReport` (R164). -/
def reported (f : Corrector) : Corrector := { f with lastCoarse := f.coarse, lastFine := f.fine }

/-- The records of an enabled diagnostic (R198 to R203). -/
def enabledRecords (enabled : Bool) (e : Event) : List Event := if enabled then [e] else []

/-- The records of `raiseTii` (R202). -/
def tiiRecords (s : State) (v : List Word) : List Event :=
  if s.ctrl.enTii then (match tii s.cfg v with | some r => [evTii r] | none => []) else []

theorem setSync_eq_records (v : SyncState) (s : State) :
    setSync v s = raiseAll (syncRecords s.sync v) { s with sync := v } := setSync_eq s v

theorem setPresence_eq_records (b : Bool) (s : State) :
    setPresence b s = raiseAll (presenceRecords s.flags.presence b)
      { s with flags := { s.flags with presence := b } } := setPresence_eq s b

theorem raiseIf_eq_records (b : Bool) (e : Event) (s : State) :
    raiseIf b e s = raiseAll (enabledRecords b e) s := raiseIf_eq s b e

theorem reported_of_eq {f : Corrector} (hc : f.coarse = f.lastCoarse) (hf : f.fine = f.lastFine) :
    reported f = f := by
  cases f
  cases hc
  cases hf
  rfl

theorem freqReport_eq_records (s : State) :
    freqReport s = raiseAll (freqRecords s.freq) { s with freq := reported s.freq } := by
  rcases freqReport_cases s with ⟨h, hc, hf⟩ | ⟨h, hne⟩
  · rw [h, reported_of_eq hc hf, freqRecords, if_pos ⟨hc, hf⟩, raiseAll_nil]
  · rw [h, freqRecords, if_neg hne]; rfl

theorem raiseTii_eq_records (v : List Word) (s : State) : raiseTii v s = raiseAll (tiiRecords s v) s := by
  unfold raiseTii tiiRecords
  cases s.ctrl.enTii
  · simp
  · cases tii s.cfg v <;> simp [raise_eq]

@[simp] theorem tiiRecords_raiseAll (es : List Event) (s : State) (v : List Word) :
    tiiRecords (raiseAll es s) v = tiiRecords s v := rfl

/-! ### The synchronisation steps of `PIPE` -/

/-- The records of a phase-reference step that shows the impulse response (R199). -/
def impulseRecords (s : State) (y : List CInt) : List Event := enabledRecords s.ctrl.enIr (evImpulse (impulse s.cfg y))

/-- The records of the diagnostics at the head of a tracked frame (R174). -/
def headRecords (s : State) (v : List Word) : List Event :=
  [evSnr (s.sym.psig / s.cfg.tU) (energySum v / s.cfg.nullCapLen)] ++
    enabledRecords s.ctrl.enNullvec (evNullvec v) ++ tiiRecords s v

theorem beginStep_eq (s : State) :
    beginStep s = raiseAll (syncRecords s.sync .acquiringNull)
      { s with det := searchReset s.det, sync := .acquiringNull } := by
  rw [beginStep, setSync_eq_records]

/-- The presence bit after a null symbol: it rises unless `PRS_FAILS` has reached its limit (R145). -/
def presenceFound (s : State) : Bool :=
  if s.cnt.prsFails.toNat < s.cfg.prsFailMax then true else s.flags.presence

theorem nullFound_eq (s : State) :
    nullFound s = raiseAll (syncRecords s.sync .acquiringPhaseReference ++
        presenceRecords s.flags.presence (presenceFound s))
      { s with
        det := searchReset s.det
        sync := .acquiringPhaseReference
        flags := { s.flags with presence := presenceFound s } } := by
  by_cases h : s.cnt.prsFails.toNat < s.cfg.prsFailMax
  · simp [nullFound, presenceFound, h, setSync_eq_records, setPresence_eq_records, raiseAll]
  · simp [nullFound, presenceFound, h, setSync_eq_records, presenceRecords]

/-- The presence bit after an acquisition failure: it falls when `PRS_FAILS` reaches its limit (R175). -/
def presenceFailed (s : State) : Bool :=
  if s.cfg.prsFailMax ≤ (nextPrsFails s).toNat then false else s.flags.presence

theorem acquireFail_eq (s : State) :
    acquireFail s = raiseAll (syncRecords s.sync .acquiringNull ++
        presenceRecords s.flags.presence (presenceFailed s))
      { s with
        cnt := { s.cnt with prsFails := nextPrsFails s }
        det := searchReset s.det
        sync := .acquiringNull
        flags := { s.flags with presence := presenceFailed s } } := by
  by_cases h : s.cfg.prsFailMax ≤ (nextPrsFails s).toNat
  · simp [acquireFail, presenceFailed, h, setSync_eq_records, setPresence_eq_records, raiseAll]
  · simp [acquireFail, presenceFailed, h, setSync_eq_records, presenceRecords]

/-- The corrector after a passed quality test on the spectrum `y` (R158 to R163). -/
def corrected (s : State) (y : List CInt) (gamma : CInt) : Corrector := freqUpdate s.cfg (shat s.cfg y) gamma s.freq

theorem acquireOk_eq (y : List CInt) (gamma : CInt) (s : State) :
    acquireOk y gamma s = raiseAll (syncRecords s.sync .synchronized ++ presenceRecords s.flags.presence true ++
        freqRecords (corrected s y gamma) ++ impulseRecords s y)
      { s with
        cnt := { s.cnt with prsFails := 0, badFrames := 0 }
        freq := reported (corrected s y gamma)
        sym := { s.sym with symIdx := 2, yprev := y, ficbuf := [], mscbuf := [] }
        sync := .synchronized
        flags := { s.flags with presence := true } } := by
  simp only [acquireOk, setSync_eq_records, setPresence_eq_records, freqReport_eq_records, raiseIf_eq_records]
  simp [raiseAll, setSymIdx, frameHead, corrected, impulseRecords]

theorem headDiagnostics_eq (v : List Word) (s : State) :
    headDiagnostics v s = raiseAll (headRecords s v) s := by
  simp [headDiagnostics, headRecords, raiseTii_eq_records, raiseIf_eq_records, raise_eq]

theorem trackOk_eq (y : List CInt) (gamma : CInt) (s : State) :
    trackOk y gamma s = raiseAll (freqRecords (corrected s y gamma) ++ impulseRecords s y)
      { s with
        cnt := { s.cnt with badFrames := 0 }
        freq := reported (corrected s y gamma)
        sym := { s.sym with symIdx := 2 } } := by
  simp only [trackOk, freqReport_eq_records, raiseIf_eq_records]
  simp [raiseAll, setSymIdx, corrected, impulseRecords]

/-- Tracking failure either loses the frame position or keeps it for one more frame (R176). -/
theorem trackFail_cases (y : List CInt) (s : State) :
    (s.cfg.nLoss ≤ (s.cnt.badFrames + 1).toNat ∧
      trackFail y s = raiseAll (syncRecords s.sync .unsynchronized)
        { s with
          cnt := { s.cnt with badFrames := s.cnt.badFrames + 1 }
          sym := { s.sym with symIdx := 1, yprev := [] }
          sync := .unsynchronized }) ∨
    ((s.cnt.badFrames + 1).toNat < s.cfg.nLoss ∧
      trackFail y s = raiseAll (impulseRecords s y)
        { s with
          cnt := { s.cnt with badFrames := s.cnt.badFrames + 1 }
          sym := { s.sym with symIdx := 2 } }) := by
  by_cases h : s.cfg.nLoss ≤ (s.cnt.badFrames + 1).toNat
  · exact .inl ⟨h, by simp only [trackFail, if_pos h, setSync_eq_records]; rfl⟩
  · exact .inr ⟨Nat.lt_of_not_le h, by simp only [trackFail, if_neg h, raiseIf_eq_records]; rfl⟩

/-- The state on which a phase-reference step that consumes `n` samples decides (R172, R174). -/
def sampled (n : Nat) (s : State) : State :=
  { consume n s with sym := { s.sym with psig := energySum (window s.cfg (consumedRaw n s)) } }

@[simp] theorem sampled_cfg (n : Nat) (s : State) : (sampled n s).cfg = s.cfg := rfl

theorem acquire_cases (s : State) :
    (qualityOk s.cfg (acquireSpectrum s) = true ∧
      acquire s = acquireOk (acquireSpectrum s) (cpCorrelation s.cfg (consumedRot (acquireLen s.cfg) s))
        (sampled (acquireLen s.cfg) s)) ∨
    (qualityOk s.cfg (acquireSpectrum s) = false ∧ acquire s = acquireFail (sampled (acquireLen s.cfg) s)) := by
  cases h : qualityOk s.cfg (acquireSpectrum s)
  · exact .inr ⟨rfl, if_neg (by rw [acquireSpectrum] at h; simp [h])⟩
  · exact .inl ⟨rfl, if_pos h⟩

/-- The state on which a tracking step decides, its diagnostics raised (R174). -/
def tracked (s : State) : State :=
  frameHead (trackSpectrum s) (headDiagnostics (nullVector s.cfg (consumedRaw (trackLen s.cfg) s))
    (sampled (trackLen s.cfg) s))

theorem tracked_eq (s : State) :
    tracked s = raiseAll
      (headRecords (sampled (trackLen s.cfg) s) (nullVector s.cfg (consumedRaw (trackLen s.cfg) s)))
      (frameHead (trackSpectrum s) (sampled (trackLen s.cfg) s)) := by
  rw [tracked, headDiagnostics_eq]; rfl

theorem track_cases (s : State) :
    (qualityOk s.cfg (trackSpectrum s) = true ∧
      track s = trackOk (trackSpectrum s) (cpCorrelation s.cfg (consumedRot (trackLen s.cfg) s)) (tracked s)) ∨
    (qualityOk s.cfg (trackSpectrum s) = false ∧ track s = trackFail (trackSpectrum s) (tracked s)) := by
  cases h : qualityOk s.cfg (trackSpectrum s)
  · exact .inr ⟨rfl, if_neg (by rw [trackSpectrum] at h; simp [h])⟩
  · exact .inl ⟨rfl, if_pos h⟩

theorem sourceFailure_eq (s : State) :
    sourceFailure s = raiseAll ([evMsg true 0x01] ++ syncRecords s.sync .unsynchronized ++
        presenceRecords s.flags.presence false)
      { s with
        flags := { s.flags with srcFail := true, run := false, presence := false }
        sym := { s.sym with symIdx := 1 }
        sync := .unsynchronized } := by
  simp [sourceFailure, setSync_eq_records, setPresence_eq_records, raise_eq, raiseAll]

end Sys2Proof.Machine
end

section
/-! What the commands and the steps outside `PIPE` do, said once, and the invariants' way through a step. -/

namespace Sys2Proof.Machine

set_option Elab.async false

/-! ### The effects of the command set -/

/-- The state after `STOP`, its response aside (R113). -/
def stopped (s : State) : State := { s with flags := { s.flags with run := false } }

/-- The state after a write of `CTRL`, its response aside (R121). -/
def withCtrl (c : Ctrl) (s : State) : State := { s with ctrl := c }

/-- The records of `RESTART` (R112). -/
def restartRecords (s : State) : List Event :=
  syncRecords s.sync .unsynchronized ++ presenceRecords s.flags.presence false

/-- The slot `id` is free for the descriptor in `P` (R118). -/
structure CanOpen (s : State) (id : Fin 64) : Prop where
  closed : slot s id = none
  range : rangeBad (descriptor s.p) = false
  free : overlapping s id (descriptor s.p) = none

/-- The state after a successful `SOPEN`, its response aside (R118). -/
def opened (id : Fin 64) (s : State) : State := writeSlot id (some (openSession s.cfg (descriptor s.p))) s

/-- What a command may do besides its one response (R111 to R124). -/
inductive CommandEffect (s : State) : Instr → State → Prop
  | nothing (i : Instr) : CommandEffect s i s
  | restart (doScan : Bool) :
      CommandEffect s (.restart doScan) (raiseAll (restartRecords s) (restartClear doScan s))
  | stop : CommandEffect s .stop (stopped s)
  | ldpl (a : BitVec 8) (imm16 : BitVec 16) (j : Fin 8) (v : Word) : CommandEffect s (.ldpl a imm16) (writeP j v s)
  | ldph (a : BitVec 8) (imm16 : BitVec 16) (j : Fin 8) (v : Word) : CommandEffect s (.ldph a imm16) (writeP j v s)
  | wrcsr (a : BitVec 8) (c : Ctrl) : CommandEffect s (.wrcsr a) (withCtrl c s)
  | sopen (id : Fin 64) (h : CanOpen s id) : CommandEffect s (.sopen (subField id)) (opened id s)
  | sclose (id : Fin 64) : CommandEffect s (.sclose (subField id)) (writeSlot id none s)

/-- A command has one of these effects and gives one response. -/
def EffectThenAnswer (s : State) (i : Instr) (t : State) : Prop :=
  ∃ u op st d, CommandEffect s i u ∧ t = respond op st d u

theorem CommandEffect.answered {s u : State} {i : Instr} (h : CommandEffect s i u) (op st : BitVec 8) (d : Word) :
    EffectThenAnswer s i (respond op st d u) := ⟨u, op, st, d, h, rfl⟩

theorem eq_subField_of_slotOperand {a : BitVec 8} {id : Fin 64} (h : slotOperand a = some id) : a = subField id := by
  rw [slotOperand_eq_some] at h
  apply BitVec.eq_of_toNat_eq
  simp only [subField, BitVec.toNat_ofNat]
  omega

theorem restart_raises (doScan : Bool) (s : State) :
    raiseIf s.flags.presence (evPresence false)
      (raiseIf (decide (s.sync ≠ .unsynchronized)) (evSyncState .unsynchronized) (restartClear doScan s)) =
    raiseAll (restartRecords s) (restartClear doScan s) := by
  by_cases hs : s.sync = .unsynchronized <;> cases hp : s.flags.presence <;>
    simp [raiseIf, restartRecords, syncRecords, presenceRecords, hs, hp, raise_eq]

theorem openSlot_effect (id : Fin 64) (s : State) : EffectThenAnswer s (.sopen (subField id)) (openSlot id s) := by
  unfold openSlot
  split
  · exact (CommandEffect.nothing _).answered ..
  · next hclosed =>
    dsimp only
    split
    · exact (CommandEffect.nothing _).answered ..
    · next hrange =>
      split
      · exact (CommandEffect.nothing _).answered ..
      · next hfree =>
        exact (CommandEffect.sopen id ⟨hclosed, Bool.eq_false_iff.mpr hrange, hfree⟩).answered ..

/-- Every command's meaning is an effect of its own kind and one response. -/
theorem exec_effect {i : Instr} {s t : State} (h : exec i s = .next t) : EffectThenAnswer s i t := by
  cases i with
  | nop => cases h; exact (CommandEffect.nothing _).answered ..
  | restart doScan =>
    cases h
    rw [restart_raises]
    exact (CommandEffect.restart doScan).answered ..
  | stop => cases h; exact CommandEffect.stop.answered ..
  | ldpl a imm16 =>
    simp only [exec, execLdpl] at h
    split at h <;> cases h
    · exact (CommandEffect.nothing _).answered ..
    · exact (CommandEffect.ldpl ..).answered ..
  | ldph a imm16 =>
    simp only [exec, execLdph] at h
    split at h <;> cases h
    · exact (CommandEffect.nothing _).answered ..
    · exact (CommandEffect.ldph ..).answered ..
  | rdp a =>
    simp only [exec, execRdp] at h
    split at h <;> cases h <;> exact (CommandEffect.nothing _).answered ..
  | wrcsr a =>
    simp only [exec, execWrcsr] at h
    split at h
    · cases h; exact (CommandEffect.nothing _).answered ..
    · split at h <;> cases h
      · exact (CommandEffect.nothing _).answered ..
      · exact (CommandEffect.wrcsr ..).answered ..
  | rdcsr a =>
    simp only [exec, execRdcsr] at h
    split at h <;> cases h <;> exact (CommandEffect.nothing _).answered ..
  | sopen a =>
    simp only [exec, execSopen] at h
    split at h <;> cases h
    · exact (CommandEffect.nothing _).answered ..
    · next id hid => rw [eq_subField_of_slotOperand hid]; exact openSlot_effect id s
  | sclose a =>
    simp only [exec, execSclose] at h
    split at h
    · cases h; exact (CommandEffect.nothing _).answered ..
    · next id hid =>
      rw [eq_subField_of_slotOperand hid]
      split at h <;> cases h
      · exact (CommandEffect.nothing _).answered ..
      · exact (CommandEffect.sclose id).answered ..
  | sstat a =>
    simp only [exec, execSstat] at h
    split at h <;> cases h <;> exact (CommandEffect.nothing _).answered ..

/-- A word served has a command's effect or none, and one response (R110, R125). -/
theorem runWord_effect {w : Word} {s t : State} (h : runWord w s = .next t) : ∃ i, EffectThenAnswer s i t := by
  unfold runWord at h
  split at h
  · next i _ => exact ⟨i, exec_effect h⟩
  · cases h; exact ⟨.nop, (CommandEffect.nothing _).answered ..⟩
  · cases h; exact ⟨.nop, (CommandEffect.nothing _).answered ..⟩

/-! ### The step, as the invariants see it -/

/-- The states agree on all that the five invariants read. -/
structure SameData (s t : State) : Prop where
  cfg : t.cfg = s.cfg
  sync : t.sync = s.sync
  badFrames : t.cnt.badFrames = s.cnt.badFrames
  prsFails : t.cnt.prsFails = s.cnt.prsFails
  det : t.det = s.det
  freq : t.freq = s.freq
  sym : t.sym = s.sym
  sess : t.sess = s.sess
  rb : t.rb = s.rb

theorem SameData.trans {s t u : State} (h : SameData s t) (g : SameData t u) : SameData s u where
  cfg := g.cfg.trans h.cfg
  sync := g.sync.trans h.sync
  badFrames := g.badFrames.trans h.badFrames
  prsFails := g.prsFails.trans h.prsFails
  det := g.det.trans h.det
  freq := g.freq.trans h.freq
  sym := g.sym.trans h.sym
  sess := g.sess.trans h.sess
  rb := g.rb.trans h.rb

theorem SameData.slot {s t : State} (h : SameData s t) (id : Fin 64) : slot t id = slot s id := by
  unfold Machine.slot; rw [h.sess]

theorem afterChoice_sameData (s : State) : SameData s (afterChoice s) := by constructor <;> simp

theorem served_sameData (s : State) (rest : List Word) : SameData s { afterChoice s with cmdq := rest } :=
  (afterChoice_sameData s).trans (by constructor <;> rfl)

theorem respond_sameData (op st : BitVec 8) (d : Word) (s : State) : SameData s (respond op st d s) := by
  constructor <;> rfl

theorem raiseAll_sameData (es : List Event) (s : State) : SameData s (raiseAll es s) := by
  constructor <;> rfl

theorem srcMiss_sameData (m : Nat) (s : State) : SameData s (srcMiss m s) := by
  unfold srcMiss; split <;> (constructor <;> rfl)

/-- The property survives what each agent can do to the data the invariants read. -/
structure KeptByAgents (P : State → Prop) : Prop where
  same : ∀ s t, SameData s t → P s → P t
  restart : ∀ doScan s, P s → P (restartClear doScan s)
  opens : ∀ id s, CanOpen s id → P s → P (opened id s)
  closes : ∀ id s, P s → P (writeSlot id none s)
  pipe : ∀ s, P s → P (pipeStep s)
  push : ∀ w s, s.rb.length < s.cfg.rbDepth → P s → P { s with rb := s.rb ++ [w] }
  fail : ∀ s, P s → P (sourceFailure s)

theorem KeptByAgents.effect {P : State → Prop} (k : KeptByAgents P) {s u : State} {i : Instr} (hs : P s)
    (h : CommandEffect s i u) : P u := by
  cases h with
  | nothing => exact hs
  | restart doScan => exact k.same _ _ (raiseAll_sameData _ _) (k.restart doScan s hs)
  | stop => exact k.same _ _ (by constructor <;> rfl) hs
  | ldpl => exact k.same _ _ (by constructor <;> rfl) hs
  | ldph => exact k.same _ _ (by constructor <;> rfl) hs
  | wrcsr => exact k.same _ _ (by constructor <;> rfl) hs
  | sopen id hopen => exact k.opens id s hopen hs
  | sclose id => exact k.closes id s hs

theorem KeptByAgents.srcPush {P : State → Prop} (k : KeptByAgents P) (w : Word) {s : State} (hs : P s) :
    P (srcPush w s) := by
  unfold Machine.srcPush
  split
  · next hroom => exact k.push w s hroom.1 hs
  · exact hs

/-- Such a property is kept by every step of the machine (R18). -/
theorem KeptByAgents.kept {P : State → Prop} (k : KeptByAgents P) : Kept P := by
  intro s t hs h
  have hc : P (afterChoice s) := k.same _ _ (afterChoice_sameData s) hs
  rcases step_cases h with ⟨w, rest, -, -, hw⟩ | ⟨-, -, rfl⟩ | ⟨-, rfl⟩ | ⟨w, -, rfl⟩ | ⟨m, -, rfl⟩ | ⟨-, rfl⟩ |
    ⟨w, -, rfl⟩ | ⟨-, rfl⟩
  · obtain ⟨i, u, op, st, d, hu, rfl⟩ := runWord_effect hw
    exact k.same _ _ (respond_sameData op st d u) (k.effect (k.same _ _ (served_sameData s rest) hs) hu)
  · exact hc
  · exact k.pipe _ hc
  · exact k.srcPush w hc
  · exact k.same _ _ (srcMiss_sameData m _) hc
  · unfold srcFailStep
    split
    · exact hc
    · exact k.fail _ hc
  · exact k.same _ _ (by constructor <;> rfl) hc
  · exact k.same _ _ (by constructor <;> rfl) hc

end Sys2Proof.Machine
end

section
/-! What decoding a frame may change: the Fast Information Channel and the sessions write counters, session buffers
and records of their own codes, and nothing else. -/

namespace Sys2Proof.Machine

set_option Elab.async false

/-! ### One session, one CIF -/

/-- What the service of a session keeps (R42, R49, R50). -/
structure SessionAdvances (c : Cfg) (x y : Session) : Prop where
  desc : y.desc = x.desc
  mismatch : y.mismatch = x.mismatch
  errcode : y.errcode = x.errcode
  consistent : x.Consistent c → y.Consistent c

theorem SessionAdvances.refl (c : Cfg) (x : Session) : SessionAdvances c x x := ⟨rfl, rfl, rfl, id⟩

theorem SessionAdvances.trans {c : Cfg} {x y z : Session} (h : SessionAdvances c x y) (g : SessionAdvances c y z) :
    SessionAdvances c x z :=
  ⟨g.desc.trans h.desc, g.mismatch.trans h.mismatch, g.errcode.trans h.errcode, g.consistent ∘ h.consistent⟩

theorem nextTdiCnt_toNat (n : BitVec 5) : (nextTdiCnt n).toNat = min (n.toNat + 1) 16 := by
  simp only [nextTdiCnt, BitVec.toNat_ofNat]
  omega

/-- A push into a de-interleaver in use counts what it holds (R244). -/
theorem tdiPush_advances (c : Cfg) (v : List Soft) {x : Session} (hen : x.desc.tdiEn = true) :
    SessionAdvances c x (tdiPush v x) where
  desc := rfl
  mismatch := rfl
  errcode := rfl
  consistent h :=
    { errcode := h.errcode
      mismatch := h.mismatch
      tdiCnt := by 
        simp only [tdiPush, nextTdiCnt_toNat, h.tdiCnt, List.length_take, List.length_cons]
        exact Nat.min_comm ..
      tdiMost := List.length_take_le ..
      tdiUnused := fun hoff => absurd (hen.symm.trans hoff) (by decide)
      sfFill := h.sfFill
      sfMost := h.sfMost
      sfUnused := h.sfUnused }

/-- A session that differs from a consistent DAB+ session in the superframe buffer only (R50). -/
theorem consistent_withSf {c : Cfg} {x : Session} (h : x.Consistent c) (htype : x.desc.type = 2)
    {fill : BitVec 3} {buf : List (List Byte)} (hfill : fill.toNat = buf.length) (hmost : buf.length ≤ 4) :
    Session.Consistent c { x with sfFill := fill, sfBuf := buf } where
  errcode := h.errcode
  mismatch := h.mismatch
  tdiCnt := h.tdiCnt
  tdiMost := h.tdiMost
  tdiUnused := h.tdiUnused
  sfFill := hfill
  sfMost := hmost
  sfUnused := fun hne => absurd htype hne

/-- The session with a logical frame appended to its superframe buffer (R296). -/
def withFrame (fr : List Byte) (x : Session) : Session := { x with sfBuf := x.sfBuf ++ [fr], sfFill := x.sfFill + 1 }

theorem sfPush_eq (id : Fin 64) (fr : List Byte) (x : Session) :
    sfPush id fr x = if (withFrame fr x).sfFill = 5 then sfAttempt id (withFrame fr x) else (withFrame fr x, []) := rfl

theorem withFrame_sfFill {c : Cfg} {x : Session} (h : x.Consistent c) (fr : List Byte) :
    (withFrame fr x).sfFill.toNat = x.sfBuf.length + 1 := by
  have hmost := h.sfMost
  rw [← h.sfFill] at hmost ⊢
  have hone : (1 : BitVec 3).toNat = 1 := rfl
  simp only [withFrame, BitVec.toNat_add, hone]
  omega

/-- The fifth frame triggers an attempt, so at most four frames stay in the buffer (R296, R297). -/
theorem sfPush_advances (c : Cfg) (id : Fin 64) (fr : List Byte) {x : Session} (htype : x.desc.type = 2) :
    SessionAdvances c x (sfPush id fr x).1 := by
  rw [sfPush_eq]
  split
  · next hfive =>
    have hfull (h : x.Consistent c) : x.sfBuf.length = 4 := by
      have hfill := withFrame_sfFill h fr
      rw [hfive] at hfill
      exact Nat.succ.inj hfill.symm
    obtain ⟨_, _, _, heq | heq⟩ := sfAttempt_cases id (withFrame fr x) <;> rw [heq]
    · exact ⟨rfl, rfl, rfl, fun h => consistent_withSf h htype rfl (Nat.zero_le _)⟩
    · refine ⟨rfl, rfl, rfl, fun h => consistent_withSf h htype ?_ ?_⟩ <;> simp [withFrame, hfull h]
  · next hnot =>
    refine ⟨rfl, rfl, rfl, fun h => consistent_withSf h htype ?_ ?_⟩
    · exact (withFrame_sfFill h fr).trans (by simp)
    · have hne : (withFrame fr x).sfFill.toNat ≠ 5 := fun e => hnot (BitVec.eq_of_toNat_eq e)
      rw [withFrame_sfFill h fr] at hne
      have := h.sfMost
      simp only [List.length_append, List.length_singleton]
      omega

theorem deliver_advances (c : Cfg) (id : Fin 64) (fr : List Byte) (x : Session) :
    SessionAdvances c x (deliver id fr x).1 := by
  unfold deliver
  split
  · exact .refl c x
  · exact .refl c x
  · next htype => exact sfPush_advances c id fr (BitVec.eq_of_toNat_eq htype)
  · exact .refl c x

/-- The service of a session keeps its descriptor, its verdict and its consistency (R42, R243). -/
theorem sessionCif_advances (c : Cfg) (id : Fin 64) (v : List Soft) (x : Session) :
    SessionAdvances c x (sessionCif c id v x).1 := by
  unfold sessionCif
  split
  · exact .refl c x
  · split
    · next hen =>
      dsimp only
      split
      · exact tdiPush_advances c v hen
      · exact (tdiPush_advances c v hen).trans (deliver_advances ..)
    · exact deliver_advances ..

/-! ### The records of decoding -/

/-- The codes of the records that decoding a frame raises are 0x09 to 0x0F (R99). -/
def DecoderRecords (es : List Event) : Prop := ∀ e ∈ es, 0x09 ≤ e.code.toNat

theorem DecoderRecords.append {es fs : List Event} (h : DecoderRecords es) (g : DecoderRecords fs) :
    DecoderRecords (es ++ fs) := fun e he => (List.mem_append.mp he).elim (h e) (g e)

theorem sfPush_records (id : Fin 64) (fr : List Byte) (x : Session) : DecoderRecords (sfPush id fr x).2 := by
  rw [sfPush_eq]
  split
  · obtain ⟨_, _, _, h | h⟩ := sfAttempt_cases id (withFrame fr x) <;> rw [h] <;>
      simp [DecoderRecords, evRsErrors, evFrameErrors, evSuperframe]
  · simp [DecoderRecords]

theorem deliver_records (id : Fin 64) (fr : List Byte) (x : Session) : DecoderRecords (deliver id fr x).2 := by
  unfold deliver
  split
  · simp [DecoderRecords, rawFrame, evSubchFrame]
  · simp [DecoderRecords, dabFrame, evFrameErrors, evSubchFrame]
  · exact sfPush_records id fr x
  · simp [DecoderRecords]

theorem sessionCif_records (c : Cfg) (id : Fin 64) (v : List Soft) (x : Session) :
    DecoderRecords (sessionCif c id v x).2 := by
  unfold sessionCif
  split
  · simp [DecoderRecords, evDecodeError]
  · split
    · dsimp only
      split
      · simp [DecoderRecords]
      · exact deliver_records _ _ _
    · exact deliver_records _ _ _

/-! ### The session table -/

/-- Every slot stays open or closed, and an open one advances. -/
def SlotsAdvance (s t : State) : Prop := ∀ id, Option.Rel (SessionAdvances s.cfg) (slot s id) (slot t id)

theorem slotsAdvance_of_sess {s t : State} (h : t.sess = s.sess) : SlotsAdvance s t := by
  intro id
  have hslot : slot t id = slot s id := by unfold slot; rw [h]
  rw [hslot]
  cases slot s id with
  | none => exact .none
  | some x => exact .some (.refl _ x)

theorem SlotsAdvance.trans {s t u : State} (h : SlotsAdvance s t) (hc : t.cfg = s.cfg) (g : SlotsAdvance t u) :
    SlotsAdvance s u := by
  intro id
  have g := hc ▸ g id
  have h := h id
  generalize slot s id = a at h
  generalize slot t id = b at h g
  generalize slot u id = d at g
  cases h with
  | none => exact g
  | some hxy => cases g with | some hyz => exact .some (hxy.trans hyz)

theorem SlotsAdvance.of_some {s t : State} (h : SlotsAdvance s t) {id : Fin 64} {y : Session}
    (hy : slot t id = some y) : ∃ x, slot s id = some x ∧ SessionAdvances s.cfg x y := by
  have hid := h id
  rw [hy] at hid
  generalize slot s id = a at hid
  cases hid with | some hxy => exact ⟨_, rfl, hxy⟩

theorem SlotsAdvance.isSome {s t : State} (h : SlotsAdvance s t) (id : Fin 64) :
    (slot t id).isSome = (slot s id).isSome := by
  have hid := h id
  generalize slot s id = a at hid
  generalize slot t id = b at hid
  cases hid <;> rfl

theorem SlotsAdvance.openIds {s t : State} (h : SlotsAdvance s t) : openIds t = openIds s := by
  simp only [Machine.openIds, h.isSome]

/-! ### Decoding a frame -/

/-- All that decoding the FIC and the CIFs of a frame may change: three counters, the buffers of open sessions, the
draws of serving orders, and `EVT` by records of the decoder's codes (R229 to R243). -/
structure DecodesTo (s t : State) : Prop where
  cfg : t.cfg = s.cfg
  p : t.p = s.p
  ctrl : t.ctrl = s.ctrl
  flags : t.flags = s.flags
  sync : t.sync = s.sync
  missed : t.cnt.missed = s.cnt.missed
  badFrames : t.cnt.badFrames = s.cnt.badFrames
  prsFails : t.cnt.prsFails = s.cnt.prsFails
  det : t.det = s.det
  freq : t.freq = s.freq
  sym : t.sym = s.sym
  rb : t.rb = s.rb
  cmdq : t.cmdq = s.cmdq
  rsp : t.rsp = s.rsp
  slots : SlotsAdvance s t
  records : ∃ es, t.evt = s.evt ++ es ∧ DecoderRecords es

theorem DecodesTo.refl (s : State) : DecodesTo s s where
  cfg := rfl
  p := rfl
  ctrl := rfl
  flags := rfl
  sync := rfl
  missed := rfl
  badFrames := rfl
  prsFails := rfl
  det := rfl
  freq := rfl
  sym := rfl
  rb := rfl
  cmdq := rfl
  rsp := rfl
  slots := slotsAdvance_of_sess rfl
  records := ⟨[], by simp, by simp [DecoderRecords]⟩

theorem DecodesTo.trans {s t u : State} (h : DecodesTo s t) (g : DecodesTo t u) : DecodesTo s u where
  cfg := g.cfg.trans h.cfg
  p := g.p.trans h.p
  ctrl := g.ctrl.trans h.ctrl
  flags := g.flags.trans h.flags
  sync := g.sync.trans h.sync
  missed := g.missed.trans h.missed
  badFrames := g.badFrames.trans h.badFrames
  prsFails := g.prsFails.trans h.prsFails
  det := g.det.trans h.det
  freq := g.freq.trans h.freq
  sym := g.sym.trans h.sym
  rb := g.rb.trans h.rb
  cmdq := g.cmdq.trans h.cmdq
  rsp := g.rsp.trans h.rsp
  slots := h.slots.trans h.cfg g.slots
  records := by
    obtain ⟨es, hes, hcode⟩ := h.records
    obtain ⟨fs, hfs, gcode⟩ := g.records
    exact ⟨es ++ fs, by rw [hfs, hes, List.append_assoc], hcode.append gcode⟩

theorem foldl_decodes {α : Type} {f : State → α → State} (h : ∀ s x, DecodesTo s (f s x)) (xs : List α) (s : State) :
    DecodesTo s (xs.foldl f s) := by
  induction xs generalizing s with
  | nil => exact .refl s
  | cons x xs ih => exact (h s x).trans (ih _)

/-- A record of the decoder's codes is all that raising it changes. -/
theorem raiseAll_decodes {es : List Event} (h : DecoderRecords es) (s : State) : DecodesTo s (raiseAll es s) :=
  { DecodesTo.refl s with slots := slotsAdvance_of_sess rfl, records := ⟨es, rfl, h⟩ }

theorem countFib_decodes (ok : Bool) (s : State) : DecodesTo s { s with cnt := countFib ok s.cnt } :=
  { DecodesTo.refl s with
    missed := by cases ok <;> rfl
    badFrames := by cases ok <;> rfl
    prsFails := by cases ok <;> rfl
    slots := slotsAdvance_of_sess rfl }

theorem fibReport_decodes (idx : Nat) (fib : List Byte) (s : State) : DecodesTo s (fibReport idx fib s) := by
  simp only [fibReport, raiseIf_eq_records, raise_eq]
  refine ((countFib_decodes _ s).trans (raiseAll_decodes ?_ _)).trans (raiseAll_decodes ?_ _)
  · simp [DecoderRecords, evFicCrc]
  · cases crc16Ok fib <;> simp [DecoderRecords, enabledRecords, evFib]

theorem ficDecode_decodes (f : List Soft) (s : State) : DecodesTo s (ficDecode f s) :=
  foldl_decodes (fun t _ => foldl_decodes (fun u _ => fibReport_decodes _ _ u) _ t) _ s

theorem writeSlot_advances {s : State} {id : Fin 64} {x y : Session} (hx : slot s id = some x)
    (h : SessionAdvances s.cfg x y) : SlotsAdvance s (writeSlot id (some y) s) := by
  intro j
  by_cases hj : id = j
  · subst hj
    rw [slot_writeSlot_self, hx]
    exact .some h
  · rw [slot_writeSlot_other s id j _ hj]
    exact slotsAdvance_of_sess rfl j

theorem serveSession_decodes (cif : List Soft) (s : State) (id : Fin 64) : DecodesTo s (serveSession cif s id) := by
  rw [serveSession_eq]
  split
  · exact .refl s
  · next x hx =>
    exact
      { DecodesTo.refl s with
        slots := writeSlot_advances hx (sessionCif_advances ..)
        records := ⟨_, rfl, sessionCif_records _ _ _ _⟩ }

theorem cifStart_decodes (s : State) : DecodesTo s (cifStart s) :=
  { DecodesTo.refl s with slots := slotsAdvance_of_sess rfl }

theorem cifProcess_decodes (cif : List Soft) (s : State) : DecodesTo s (cifProcess cif s) :=
  (cifStart_decodes s).trans (foldl_decodes (serveSession_decodes cif) _ _)

theorem cifsProcess_decodes (msc : List Soft) (s : State) : DecodesTo s (cifsProcess msc s) :=
  foldl_decodes (fun t _ => cifProcess_decodes _ t) _ s

/-- The end of a frame: its blocks are decoded, the constellation is raised if enabled, the frame closes (R193). -/
theorem endOfFrame_cases (soft : List Soft) (s : State) :
    ∃ u, DecodesTo s u ∧ endOfFrame soft s =
      raiseAll (enabledRecords s.ctrl.enConst (evConst (constellation s.cfg soft))) (frameClose u) := by
  have h := (ficDecode_decodes s.sym.ficbuf s).trans (cifsProcess_decodes s.sym.mscbuf (ficDecode s.sym.ficbuf s))
  refine ⟨_, h, ?_⟩
  rw [endOfFrame, raiseIf_eq_records, h.ctrl, h.cfg]
  rfl

end Sys2Proof.Machine
end

section
/-! The data-symbol step of `PIPE`, and what no step of `PIPE` writes. -/

namespace Sys2Proof.Machine

set_option Elab.async false

/-! ### The data-symbol step -/

/-- The FFT output of a data-symbol step (R191). -/
def symbolSpectrum (s : State) : List CInt := fft s.cfg ((consumedRot s.cfg.tS s).drop s.cfg.tG)

/-- The soft bits of a data-symbol step (R186, R189). -/
def symbolBits (s : State) : List Soft := softBits s.cfg (symbolSpectrum s) s.sym.yprev

/-- The state of a data-symbol step with its soft bits in their buffer (R190, R191). -/
def demodulated (s : State) : State :=
  appendSoft s.sym.symIdx.toNat (symbolSpectrum s) (symbolBits s) (consume s.cfg.tS s)

/-- `FICBUF` and `MSCBUF` with the soft bits of symbol `l` appended to one of them (R190). -/
theorem appendSoft_eq (l : Nat) (y : List CInt) (soft : List Soft) (s : State) :
    appendSoft l y soft s =
      { s with sym := { s.sym with
          yprev := y
          ficbuf := s.sym.ficbuf ++ if l ≤ s.cfg.nHead then soft else []
          mscbuf := s.sym.mscbuf ++ if l ≤ s.cfg.nHead then [] else soft } } := by
  unfold appendSoft
  split <;> simp

/-- The state of a data-symbol step at its decision, all fields but the symbol state as after `consume` (R191). -/
theorem demodulated_eq (s : State) :
    demodulated s = { consume s.cfg.tS s with sym := { s.sym with
      yprev := symbolSpectrum s
      ficbuf := s.sym.ficbuf ++ if s.sym.symIdx.toNat ≤ s.cfg.nHead then symbolBits s else []
      mscbuf := s.sym.mscbuf ++ if s.sym.symIdx.toNat ≤ s.cfg.nHead then [] else symbolBits s } } := by
  rw [demodulated, appendSoft_eq]; rfl

/-- A data-symbol step goes on inside the frame or ends it (R191, R193). -/
theorem symbolStep_cases (s : State) :
    (s.sym.symIdx.toNat < s.cfg.symbols ∧
      symbolStep s = setSymIdx (s.sym.symIdx + 1) (demodulated s)) ∨
    (s.cfg.symbols ≤ s.sym.symIdx.toNat ∧ ∃ u es, DecodesTo (demodulated s) u ∧
      es = enabledRecords s.ctrl.enConst (evConst (constellation s.cfg (symbolBits s))) ∧
      symbolStep s = raiseAll es (frameClose u)) := by
  by_cases h : s.sym.symIdx.toNat < s.cfg.symbols
  · exact .inl ⟨h, if_pos h⟩
  · have hend : symbolStep s = endOfFrame (symbolBits s) (demodulated s) := if_neg h
    obtain ⟨u, hu, heq⟩ := endOfFrame_cases (symbolBits s) (demodulated s)
    have hctrl : (demodulated s).ctrl = s.ctrl := by rw [demodulated_eq]; rfl
    have hcfg : (demodulated s).cfg = s.cfg := by rw [demodulated_eq]; rfl
    rw [hctrl, hcfg] at heq
    exact .inr ⟨Nat.le_of_not_lt h, u, _, hu, rfl, hend.trans heq⟩

/-! ### What no step of `PIPE` writes -/

/-- All that a step of `PIPE` leaves: what belongs to the commands and the other agents; the open slots stay open
and `EVT` only grows (R21, R33, R42, R66). -/
structure PipeFrame (s t : State) : Prop where
  cfg : t.cfg = s.cfg
  p : t.p = s.p
  ctrl : t.ctrl = s.ctrl
  cmdq : t.cmdq = s.cmdq
  rsp : t.rsp = s.rsp
  run : t.flags.run = s.flags.run
  scan : t.flags.scan = s.flags.scan
  srcFail : t.flags.srcFail = s.flags.srcFail
  missed : t.cnt.missed = s.cnt.missed
  slots : SlotsAdvance s t
  evt : s.evt <+: t.evt

theorem PipeFrame.refl (s : State) : PipeFrame s s :=
  ⟨rfl, rfl, rfl, rfl, rfl, rfl, rfl, rfl, rfl, slotsAdvance_of_sess rfl, ⟨[], List.append_nil _⟩⟩

theorem PipeFrame.trans {s t u : State} (h : PipeFrame s t) (g : PipeFrame t u) : PipeFrame s u where
  cfg := g.cfg.trans h.cfg
  p := g.p.trans h.p
  ctrl := g.ctrl.trans h.ctrl
  cmdq := g.cmdq.trans h.cmdq
  rsp := g.rsp.trans h.rsp
  run := g.run.trans h.run
  scan := g.scan.trans h.scan
  srcFail := g.srcFail.trans h.srcFail
  missed := g.missed.trans h.missed
  slots := h.slots.trans h.cfg g.slots
  evt := h.evt.trans g.evt

/-- The fields of the state that are not `PIPE`'s own, the slots and `EVT` among them. -/
def foreign (s : State) :=
  (s.cfg, s.p, s.ctrl, s.cmdq, s.rsp, s.flags.run, s.flags.scan, s.flags.srcFail, s.cnt.missed, s.sess, s.evt)

theorem pipeFrame_of_foreign {s t : State} (h : foreign t = foreign s) : PipeFrame s t := by
  simp only [foreign, Prod.mk.injEq] at h
  obtain ⟨hcfg, hp, hctrl, hcmdq, hrsp, hrun, hscan, hfail, hmissed, hsess, hevt⟩ := h
  exact ⟨hcfg, hp, hctrl, hcmdq, hrsp, hrun, hscan, hfail, hmissed, slotsAdvance_of_sess hsess,
    [], by rw [hevt, List.append_nil]⟩

/-- A step of `PIPE` is a list of records raised on a state with some of `PIPE`'s own fields replaced. -/
theorem frame_raising {s t : State} (h : foreign t = foreign s) (es : List Event) : PipeFrame s (raiseAll es t) :=
  (pipeFrame_of_foreign h).trans
    { PipeFrame.refl t with slots := slotsAdvance_of_sess rfl, evt := ⟨_, rfl⟩ }

theorem DecodesTo.frame {s t : State} (h : DecodesTo s t) : PipeFrame s t where
  cfg := h.cfg
  p := h.p
  ctrl := h.ctrl
  cmdq := h.cmdq
  rsp := h.rsp
  run := by rw [h.flags]
  scan := by rw [h.flags]
  srcFail := by rw [h.flags]
  missed := h.missed
  slots := h.slots
  evt := by obtain ⟨es, hes, -⟩ := h.records; exact ⟨es, hes.symm⟩

theorem beginStep_frame (s : State) : PipeFrame s (beginStep s) := by
  rw [beginStep_eq]
  exact frame_raising (by rfl) _

theorem nullSearch_frame (w : Word) (rest : List Word) (s : State) : PipeFrame s (nullSearch w rest s) := by
  obtain ⟨u, rfl, ⟨-, h⟩ | ⟨-, v, rfl, ⟨-, h⟩ | ⟨-, h⟩⟩⟩ := nullSearch_cases w rest s <;> rw [h]
  · rw [nullFound_eq]
    exact frame_raising (by rfl) _
  · exact frame_raising (by rfl) [evPresence false]
  · exact pipeFrame_of_foreign (by rfl)

theorem acquire_frame (s : State) : PipeFrame s (acquire s) := by
  rcases acquire_cases s with ⟨-, h⟩ | ⟨-, h⟩ <;> rw [h]
  · rw [acquireOk_eq]
    exact frame_raising (by rfl) _
  · rw [acquireFail_eq]
    exact frame_raising (by rfl) _

theorem tracked_frame (s : State) : PipeFrame s (tracked s) := by
  rw [tracked_eq]
  exact frame_raising (by rfl) _

theorem track_frame (s : State) : PipeFrame s (track s) := by
  rcases track_cases s with ⟨-, h⟩ | ⟨-, h⟩ <;> rw [h] <;> refine (tracked_frame s).trans ?_
  · rw [trackOk_eq]
    exact frame_raising (by rfl) _
  · rcases trackFail_cases (trackSpectrum s) (tracked s) with ⟨-, g⟩ | ⟨-, g⟩ <;> rw [g] <;>
      exact frame_raising (by rfl) _

theorem symbolStep_frame (s : State) : PipeFrame s (symbolStep s) := by
  have hdem : PipeFrame s (demodulated s) := by rw [demodulated_eq]; exact pipeFrame_of_foreign (by rfl)
  rcases symbolStep_cases s with ⟨-, h⟩ | ⟨-, u, es, hu, -, h⟩ <;> rw [h]
  · exact hdem.trans (pipeFrame_of_foreign (by rfl))
  · exact (hdem.trans hu.frame).trans (frame_raising (by rfl) es)

theorem pipeStep_frame (s : State) : PipeFrame s (pipeStep s) := by
  rcases pipeStep_cases s with h | ⟨-, -, h⟩ | ⟨w, rest, -, -, -, h⟩ | ⟨-, -, -, h⟩ | ⟨-, -, -, -, h⟩ |
    ⟨-, -, -, -, -, h⟩ <;> rw [h]
  · exact .refl s
  · exact beginStep_frame s
  · exact nullSearch_frame w rest s
  · exact acquire_frame s
  · exact track_frame s
  · exact symbolStep_frame s

@[simp] theorem pipeStep_cfg (s : State) : (pipeStep s).cfg = s.cfg := (pipeStep_frame s).cfg

end Sys2Proof.Machine
end

section
/-! The null detector: every sample keeps the window sum, its slots and the bounds of the level (R45, R141, R142). -/

namespace Sys2Proof.Machine

set_option Elab.async false

/-! ### The energy of a sample -/

/-- A component of a sample is a 16-bit two's-complement number (R104). -/
theorem natAbs_toInt_le (x : BitVec 16) : x.toInt.natAbs ≤ 32768 := by
  have hlow : -32768 ≤ x.toInt := BitVec.le_toInt x
  have hhigh : x.toInt < 32768 := BitVec.toInt_lt
  omega

theorem square_toInt_le (x : BitVec 16) : x.toInt * x.toInt ≤ 1073741824 := by
  rw [← Int.natAbs_mul_self]
  exact Int.ofNat_le.mpr (Nat.mul_le_mul (natAbs_toInt_le x) (natAbs_toInt_le x))

theorem energy_le (w : Word) : energy w ≤ 2 ^ 31 := by
  have hi := square_toInt_le (w.extractLsb' 0 16)
  have hq := square_toInt_le (w.extractLsb' 16 16)
  simp only [energy, sample, CInt.norm2]
  omega

/-! ### One sample -/

/-- What `State.DetectorOk` says of the detector alone (R45, R141, R142). -/
structure Detector.InBounds (c : Cfg) (d : Detector) : Prop where
  slots : d.win.length = c.wNull
  energies : ∀ e ∈ d.win, e ≤ 2 ^ 31
  sum : d.wsum = d.win.sum
  place : d.wpos < c.wNull
  level : d.slevel.toNat ≤ 2 ^ (31 + c.lvlShift)
  age : d.lvlAge ≤ c.nWarm

theorem detectorOk_iff (s : State) : s.DetectorOk ↔ s.det.InBounds s.cfg :=
  ⟨fun ⟨h1, h2, h3, h4, h5, h6⟩ => ⟨h1, h2, h3, h4, h5, h6⟩,
    fun ⟨h1, h2, h3, h4, h5, h6⟩ => ⟨h1, h2, h3, h4, h5, h6⟩⟩

/-- Overwriting one entry moves a sum by the difference of the entries. -/
theorem sum_set_add_getD (l : List Nat) (i e : Nat) (h : i < l.length) :
    (l.set i e).sum + l.getD i 0 = l.sum + e := by
  induction l generalizing i with
  | nil => cases h
  | cons x xs ih =>
    cases i with
    | zero => simp only [List.set_cons_zero, List.sum_cons, List.getD_cons_zero]; omega
    | succ i =>
      have := ih i (Nat.lt_of_succ_lt_succ h)
      simp only [List.set_cons_succ, List.sum_cons, List.getD_cons_succ]
      omega

/-- A level at its bound `b * m` loses at least `b` before the next energy, of at most `b`, comes in (R142). -/
theorem leak_add_le {level b m e : Nat} (hlevel : level ≤ b * m) (he : e ≤ b) (hm : 0 < m) :
    level - level / m + e ≤ b * m := by
  have hsplit := Nat.div_add_mod level m
  have hr := Nat.mod_lt level hm
  have hq : level / m ≤ b := Nat.div_le_of_le_mul (Nat.mul_comm b m ▸ hlevel)
  generalize level / m = q at hsplit hq ⊢
  generalize level % m = r at hsplit hr
  rw [Nat.mul_comm m q] at hsplit
  have hqm : q ≤ q * m := Nat.le_mul_of_pos_right q hm
  rcases Nat.eq_or_lt_of_le hq with rfl | hlt
  · omega
  · obtain ⟨k, rfl⟩ : ∃ k, b = q + 1 + k := ⟨b - (q + 1), by omega⟩
    have hk : k ≤ k * m := Nat.le_mul_of_pos_right k hm
    rw [Nat.add_mul, Nat.add_mul, Nat.one_mul]
    omega

/-- One sample: the slot is overwritten and the sum follows it, the level leaks, the age saturates (R141, R142). -/
theorem Detector.InBounds.sense {c : Cfg} {d : Detector} (h : d.InBounds c) {e : Nat} (he : e ≤ 2 ^ 31) :
    (sense c e d).InBounds c where
  slots := by simp [Machine.sense, h.slots]
  energies x hx := by
    rcases List.mem_or_eq_of_mem_set hx with hmem | rfl
    · exact h.energies x hmem
    · exact he
  sum := by
    have := sum_set_add_getD d.win d.wpos e (h.slots ▸ h.place)
    have := h.sum
    simp only [Machine.sense]
    omega
  place := Nat.mod_lt _ (Nat.zero_lt_of_lt h.place)
  level := by
    have hlevel := h.level
    rw [Nat.pow_add] at hlevel ⊢
    simp only [Machine.sense, BitVec.toNat_ofNat]
    exact Nat.le_trans (Nat.mod_le _ _) (leak_add_le hlevel he (Nat.two_pow_pos _))
  age := Nat.min_le_right _ _

theorem Detector.InBounds.senseAll {c : Cfg} {d : Detector} (h : d.InBounds c) (ws : List Word) :
    (senseAll c ws d).InBounds c := by
  induction ws generalizing d with
  | nil => exact h
  | cons w ws ih => exact ih (h.sense (energy_le w))

/-! ### The search fields do not matter -/

theorem Detector.InBounds.withSearch {c : Cfg} {d : Detector} (h : d.InBounds c) (y : NullPhase) (n m : Word) :
    Detector.InBounds c { d with nullPhase := y, nsCount := n, dipLen := m } := ⟨h.1, h.2, h.3, h.4, h.5, h.6⟩

theorem Detector.InBounds.searchReset {c : Cfg} {d : Detector} (h : d.InBounds c) : (searchReset d).InBounds c :=
  h.withSearch ..

theorem Detector.InBounds.searchSense {c : Cfg} {d : Detector} (h : d.InBounds c) (w : Word) :
    (searchSense c w d).InBounds c := (h.sense (energy_le w)).withSearch ..

theorem Detector.InBounds.dipUpdate {c : Cfg} {d : Detector} (h : d.InBounds c) : (dipUpdate c d).InBounds c := by
  unfold Machine.dipUpdate
  split
  · split
    · exact h.withSearch ..
    · exact h
  · dsimp only
    split <;> exact h.withSearch ..

theorem Detector.zero_inBounds {c : Cfg} (h : 0 < c.wNull) : (Detector.zero c).InBounds c where
  slots := List.length_replicate
  energies e he := by rw [List.eq_of_mem_replicate he]; exact Nat.zero_le _
  sum := by simp [Detector.zero]
  place := h
  level := Nat.zero_le _
  age := Nat.zero_le _

/-! ### The detector through a step of `PIPE` -/

theorem nullSearch_detector {w : Word} {rest : List Word} {s : State} (h : s.det.InBounds s.cfg) :
    (nullSearch w rest s).det.InBounds s.cfg := by
  have hsense := h.searchSense w
  obtain ⟨u, rfl, ⟨-, g⟩ | ⟨-, v, rfl, ⟨-, g⟩ | ⟨-, g⟩⟩⟩ := nullSearch_cases w rest s <;> rw [g]
  · rw [nullFound_eq]
    exact hsense.searchReset
  · exact hsense.dipUpdate.searchReset
  · exact hsense.dipUpdate

theorem acquire_detector {s : State} (h : s.det.InBounds s.cfg) : (acquire s).det.InBounds s.cfg := by
  have hsense := h.senseAll (consumedRaw (acquireLen s.cfg) s)
  rcases acquire_cases s with ⟨-, g⟩ | ⟨-, g⟩ <;> rw [g]
  · rw [acquireOk_eq]
    exact hsense
  · rw [acquireFail_eq]
    exact hsense.searchReset

theorem tracked_det (s : State) : (tracked s).det = senseAll s.cfg (consumedRaw (trackLen s.cfg) s) s.det := by
  rw [tracked_eq]; rfl

theorem track_det (s : State) : (track s).det = senseAll s.cfg (consumedRaw (trackLen s.cfg) s) s.det := by
  rw [← tracked_det]
  rcases track_cases s with ⟨-, g⟩ | ⟨-, g⟩ <;> rw [g]
  · rw [trackOk_eq]; rfl
  · rcases trackFail_cases (trackSpectrum s) (tracked s) with ⟨-, e⟩ | ⟨-, e⟩ <;> rw [e] <;> rfl

theorem demodulated_det (s : State) : (demodulated s).det = senseAll s.cfg (consumedRaw s.cfg.tS s) s.det := by
  rw [demodulated_eq]; rfl

theorem symbolStep_det (s : State) : (symbolStep s).det = senseAll s.cfg (consumedRaw s.cfg.tS s) s.det := by
  rw [← demodulated_det]
  rcases symbolStep_cases s with ⟨-, g⟩ | ⟨-, u, es, hu, -, g⟩ <;> rw [g]
  · rfl
  · exact hu.det

theorem pipeStep_detector {s : State} (h : s.det.InBounds s.cfg) : (pipeStep s).det.InBounds s.cfg := by
  rcases pipeStep_cases s with g | ⟨-, -, g⟩ | ⟨w, rest, -, -, -, g⟩ | ⟨-, -, -, g⟩ | ⟨-, -, -, -, g⟩ |
    ⟨-, -, -, -, -, g⟩ <;> rw [g]
  · exact h
  · rw [beginStep_eq]
    exact h.searchReset
  · exact nullSearch_detector h
  · exact acquire_detector h
  · rw [track_det]
    exact h.senseAll _
  · rw [symbolStep_det]
    exact h.senseAll _

theorem detector_keptByAgents : KeptByAgents fun s => s.cfg.WellFormed ∧ s.det.InBounds s.cfg where
  same s t h hs := by rw [h.cfg, h.det]; exact hs
  restart _ _ hs := ⟨hs.1, Detector.zero_inBounds (Nat.zero_lt_of_lt hs.2.place)⟩
  opens _ _ _ hs := hs
  closes _ _ hs := hs
  pipe s hs := by rw [pipeStep_cfg]; exact ⟨hs.1, pipeStep_detector hs.2⟩
  push _ _ _ hs := hs
  fail s hs := by rw [sourceFailure_eq]; exact hs

/-- Settles O31: every step feeds the detector samples, restarts its search or clears it. -/
theorem detectorInvariantKept : Obligations.DetectorInvariantKept := by
  unfold Obligations.DetectorInvariantKept
  simp only [detectorOk_iff]
  exact detector_keptByAgents.kept

end Sys2Proof.Machine
end

section
/-! The session table: open sessions stay disjoint, inside the CIF and consistent, and keep their descriptors
(R40, R42, R44). -/

namespace Sys2Proof.Machine

set_option Elab.async false

/-! ### Opening and closing -/

theorem slot_of_closed {s : State} (h : s.sess = Vector.replicate 64 none) (id : Fin 64) : slot s id = none := by
  simp [slot, h]

/-- A fresh session is consistent: its verdict is the check's and its buffers are empty (R118, R42). -/
theorem openSession_consistent (c : Cfg) (d : Descriptor) : (openSession c d).Consistent c where
  errcode := rfl
  mismatch := rfl
  tdiCnt := rfl
  tdiMost := Nat.zero_le _
  tdiUnused _ := rfl
  sfFill := rfl
  sfMost := Nat.zero_le _
  sfUnused _ := rfl

theorem inside_of_range {d : Descriptor} (h : rangeBad d = false) : d.Inside := by
  obtain ⟨hsize, hcif⟩ := (rangeBad_eq_false d).mp h
  have hpos : d.sizeCu.toNat ≠ 0 := fun h0 => hsize (BitVec.eq_of_toNat_eq h0)
  exact ⟨Nat.pos_of_ne_zero hpos, hcif⟩

/-- Ranges that do not meet are apart (R118, R44). -/
theorem apart_of_not_meet {d e : Descriptor} (h : rangesMeet d e = false) : d.Apart e := by
  have hne : ¬ (d.startCu.toNat < e.startCu.toNat + e.sizeCu.toNat ∧
      e.startCu.toNat < d.startCu.toNat + d.sizeCu.toNat) := by
    rw [← rangesMeet_eq_true, h]
    exact Bool.false_ne_true
  unfold Descriptor.Apart
  omega

theorem Descriptor.Apart.symm {d e : Descriptor} (h : d.Apart e) : e.Apart d := Or.symm h

/-- A slot that can be opened meets no other open slot (R118). -/
theorem CanOpen.apart {s : State} {id o : Fin 64} {e : Session} (h : CanOpen s id) (hne : o ≠ id)
    (ho : slot s o = some e) : (descriptor s.p).Apart e.desc := by
  apply apart_of_not_meet
  have hnone := List.find?_eq_none.mp h.free o (List.mem_finRange o)
  simpa [hne, ho] using hnone

/-! ### The table as a whole -/

/-- The invariant reads the configuration and the slots only. -/
theorem State.SlotsOk.congr {s t : State} (h : s.SlotsOk) (hcfg : t.cfg = s.cfg)
    (hslot : ∀ id, slot t id = slot s id) : t.SlotsOk where
  inside id x := by rw [hslot]; exact h.inside id x
  apart a b x y := by rw [hslot, hslot]; exact h.apart a b x y
  consistent id x := by rw [hslot, hcfg]; exact h.consistent id x

theorem slotsOk_of_closed {s : State} (h : ∀ id, slot s id = none) : s.SlotsOk where
  inside id x hx := by rw [h] at hx; cases hx
  apart a _ x _ _ hx := by rw [h] at hx; cases hx
  consistent id x hx := by rw [h] at hx; cases hx

/-- Fewer open slots satisfy the invariant too. -/
theorem State.SlotsOk.subset {s t : State} (h : s.SlotsOk) (hcfg : t.cfg = s.cfg)
    (hsub : ∀ id x, slot t id = some x → slot s id = some x) : t.SlotsOk where
  inside id x hx := h.inside id x (hsub id x hx)
  apart a b x y hne hx hy := h.apart a b x y hne (hsub a x hx) (hsub b y hy)
  consistent id x hx := by rw [hcfg]; exact h.consistent id x (hsub id x hx)

theorem slot_closed_subset (id j : Fin 64) (s : State) (x : Session) (h : slot (writeSlot id none s) j = some x) :
    slot s j = some x := by
  by_cases hj : id = j
  · subst hj
    rw [slot_writeSlot_self] at h
    cases h
  · rwa [slot_writeSlot_other s id j _ hj] at h

/-- An open slot after a successful `SOPEN` is the new one or an old one (R118). -/
theorem slot_opened {id j : Fin 64} {s : State} {x : Session} (h : slot (opened id s) j = some x) :
    (j = id ∧ x = openSession s.cfg (descriptor s.p)) ∨ (j ≠ id ∧ slot s j = some x) := by
  by_cases hj : id = j
  · subst hj
    rw [opened, slot_writeSlot_self] at h
    exact .inl ⟨rfl, (Option.some.inj h).symm⟩
  · rw [opened, slot_writeSlot_other s id j _ hj] at h
    exact .inr ⟨fun e => hj e.symm, h⟩

theorem State.SlotsOk.opened {s : State} {id : Fin 64} (h : s.SlotsOk) (hopen : CanOpen s id) :
    (opened id s).SlotsOk where
  inside j x hx := by
    rcases slot_opened hx with ⟨-, rfl⟩ | ⟨-, hx⟩
    · exact inside_of_range hopen.range
    · exact h.inside j x hx
  apart a b x y hne hx hy := by
    rcases slot_opened hx with ⟨rfl, rfl⟩ | ⟨ha, hxold⟩ <;> rcases slot_opened hy with ⟨hb, rfl⟩ | ⟨hb, hyold⟩
    · exact absurd hb.symm hne
    · exact hopen.apart hb hyold
    · exact (hopen.apart (hb ▸ hne) hxold).symm
    · exact h.apart a b x y hne hxold hyold
  consistent j x hx := by
    rcases slot_opened hx with ⟨-, rfl⟩ | ⟨-, hx⟩
    · exact openSession_consistent ..
    · exact h.consistent j x hx

/-- Service keeps every descriptor and every session consistent, so the invariant too (R42, R44). -/
theorem State.SlotsOk.advance {s t : State} (h : s.SlotsOk) (hcfg : t.cfg = s.cfg) (hadv : SlotsAdvance s t) :
    t.SlotsOk where
  inside id y hy := by
    obtain ⟨x, hx, hxy⟩ := hadv.of_some hy
    rw [hxy.desc]
    exact h.inside id x hx
  apart a b y z hne hy hz := by
    obtain ⟨x, hx, hxy⟩ := hadv.of_some hy
    obtain ⟨w, hw, hwz⟩ := hadv.of_some hz
    rw [hxy.desc, hwz.desc]
    exact h.apart a b x w hne hx hw
  consistent id y hy := by
    obtain ⟨x, hx, hxy⟩ := hadv.of_some hy
    rw [hcfg]
    exact hxy.consistent (h.consistent id x hx)

theorem slots_keptByAgents : KeptByAgents State.SlotsOk where
  same _ _ h hs := hs.congr h.cfg h.slot
  restart _ _ _ := slotsOk_of_closed (slot_of_closed rfl)
  opens _ _ hopen hs := hs.opened hopen
  closes id s hs := hs.subset rfl fun j x => slot_closed_subset id j s x
  pipe s hs := hs.advance (pipeStep_cfg s) (pipeStep_frame s).slots
  push _ _ _ hs := hs.congr rfl fun _ => rfl
  fail s hs := by rw [sourceFailure_eq]; exact hs.congr rfl fun _ => rfl

/-- Settles O32: `SOPEN` admits only a free range, and service keeps each session's buffers counted. -/
theorem sessionTableInvariantKept : Obligations.SessionTableInvariantKept := slots_keptByAgents.kept

/-! ### Open slots keep their descriptor -/

/-- The open slot of a state keeps its descriptor and verdict in every open slot of the other state at its place. -/
def KeepsDescriptors (s t : State) : Prop :=
  ∀ id x y, slot s id = some x → slot t id = some y → y.desc = x.desc ∧ y.mismatch = x.mismatch ∧ y.errcode = x.errcode

theorem keepsDescriptors_of_subset {s t : State}
    (h : ∀ id y, slot t id = some y → slot s id = none ∨ slot s id = some y) :
    KeepsDescriptors s t := by
  intro id x y hx hy
  rcases h id y hy with hn | hs
  · rw [hn] at hx; cases hx
  · rw [hs] at hx; cases hx; exact ⟨rfl, rfl, rfl⟩

theorem keepsDescriptors_of_slots {s t : State} (h : ∀ id, slot t id = slot s id) : KeepsDescriptors s t :=
  keepsDescriptors_of_subset fun id y hy => .inr (by rw [← h id]; exact hy)

theorem keepsDescriptors_of_advance {s t : State} (h : SlotsAdvance s t) : KeepsDescriptors s t := by
  intro id x y hx hy
  obtain ⟨z, hz, hzy⟩ := h.of_some hy
  rw [hx] at hz
  cases hz
  exact ⟨hzy.desc, hzy.mismatch, hzy.errcode⟩

theorem effect_keepsDescriptors {s t : State} {i : Instr} (h : CommandEffect s i t) : KeepsDescriptors s t := by
  cases h with
  | restart doScan =>
    refine keepsDescriptors_of_subset fun id y hy => ?_
    rw [slot_raiseAll, slot_of_closed rfl] at hy
    cases hy
  | sopen id hopen =>
    refine keepsDescriptors_of_subset fun j y hy => ?_
    rcases slot_opened hy with ⟨rfl, -⟩ | ⟨-, hy⟩
    · exact .inl hopen.closed
    · exact .inr hy
  | sclose id => exact keepsDescriptors_of_subset fun j y hy => .inr (slot_closed_subset id j s y hy)
  | nothing | stop | ldpl | ldph | wrcsr => exact keepsDescriptors_of_slots fun _ => rfl

/-- The choice of the agent leaves the slots. -/
theorem slot_afterChoice (s : State) (id : Fin 64) : slot (afterChoice s) id = slot s id :=
  (afterChoice_sameData s).slot id

theorem step_keepsDescriptors {s t : State} (h : step s = .next t) : KeepsDescriptors s t := by
  suffices hc : KeepsDescriptors (afterChoice s) t by
    intro id x y hx
    exact hc id x y (by rw [slot_afterChoice]; exact hx)
  rcases step_cases h with ⟨w, rest, -, -, hw⟩ | ⟨-, -, rfl⟩ | ⟨-, rfl⟩ | ⟨w, -, rfl⟩ | ⟨m, -, rfl⟩ | ⟨-, rfl⟩ |
    ⟨w, -, rfl⟩ | ⟨-, rfl⟩
  · obtain ⟨i, u, op, st, d, hu, rfl⟩ := runWord_effect hw
    exact fun id x y => effect_keepsDescriptors hu id x y
  · exact keepsDescriptors_of_slots fun _ => rfl
  · exact keepsDescriptors_of_advance (pipeStep_frame _).slots
  · exact keepsDescriptors_of_slots fun _ => by unfold srcPush; split <;> rfl
  · exact keepsDescriptors_of_slots (srcMiss_sameData m _).slot
  · exact keepsDescriptors_of_slots fun _ => by
      unfold srcFailStep
      split
      · rfl
      · rw [sourceFailure_eq]; rfl
  · exact keepsDescriptors_of_slots fun _ => rfl
  · exact keepsDescriptors_of_slots fun _ => rfl

/-- Settles O25: no step rewrites a descriptor, and `PIPE` writes only its own fields. -/
theorem descriptorImmutable : Obligations.DescriptorImmutable := by
  refine ⟨fun s t id x y h => step_keepsDescriptors h id x y, fun s => ?_⟩
  have h := pipeStep_frame s
  exact ⟨h.slots.openIds, h.p, h.ctrl, h.cmdq, h.rsp, h.run, h.scan, h.srcFail, h.missed⟩

end Sys2Proof.Machine
end

section
/-! The frame position and the symbol buffers: inside a frame the buffers hold the soft bits of the symbols demodulated
so far (R22, R47, R190). -/

namespace Sys2Proof.Machine

set_option Elab.async false

/-! ### What a legal configuration gives -/

theorem symbols_bounds {c : Cfg} (h : c.WellFormed) : 2 ≤ c.symbols ∧ c.symbols ≤ 255 := by
  obtain ⟨⟨-, -, -, -, -, -, -, -, -, hlow, hhigh, -⟩, -⟩ := h
  exact ⟨hlow, hhigh⟩

theorem fmap_length {c : Cfg} (h : c.WellFormed) : c.fmap.length = c.carriers := by
  obtain ⟨-, -, -, hperm, -⟩ := h
  simpa [carrierList] using hperm.length_eq

/-- A symbol yields two soft bits for each carrier (R189). -/
theorem symbolBits_length {s : State} (h : s.cfg.WellFormed) : (symbolBits s).length = symbolSoft s.cfg := by
  simp only [symbolBits, softBits, softPairs, List.length_append, List.length_map, fmap_length h, symbolSoft]
  omega

/-! ### The symbols demodulated so far -/

theorem ficSymbolsBefore_succ (c : Cfg) {l : Nat} (h : 2 ≤ l) :
    ficSymbolsBefore c (l + 1) = ficSymbolsBefore c l + if l ≤ c.nHead then 1 else 0 := by
  unfold ficSymbolsBefore Cfg.nHead
  split <;> omega

theorem mscSymbolsBefore_succ (c : Cfg) (l : Nat) :
    mscSymbolsBefore c (l + 1) = mscSymbolsBefore c l + if l ≤ c.nHead then 0 else 1 := by
  unfold mscSymbolsBefore
  split <;> omega

/-! ### The states that satisfy the invariant -/

/-- Outside `Synchronized` the position is 1 and the buffers are within their capacity. -/
theorem frameOk_outside {s : State} (hsync : s.sync ≠ .synchronized) (hidx : s.sym.symIdx = 1)
    (hfic : s.sym.ficbuf.length ≤ s.cfg.ficSyms * symbolSoft s.cfg)
    (hmsc : s.sym.mscbuf.length ≤ (s.cfg.symbols - s.cfg.nHead) * symbolSoft s.cfg) : s.FrameOk where
  outside _ := hidx
  inside h := absurd h hsync
  fic h := absurd h hsync
  msc h := absurd h hsync
  ficMost := hfic
  mscMost := hmsc

/-- Inside a frame the counts of symbols bound the buffers. -/
theorem frameOk_inside {s : State} (hsync : s.sync = .synchronized) (hlow : 1 ≤ s.sym.symIdx.toNat)
    (hhigh : s.sym.symIdx.toNat ≤ s.cfg.symbols)
    (hfic : s.sym.ficbuf.length = ficSymbolsBefore s.cfg s.sym.symIdx.toNat * symbolSoft s.cfg)
    (hmsc : s.sym.mscbuf.length = mscSymbolsBefore s.cfg s.sym.symIdx.toNat * symbolSoft s.cfg) : s.FrameOk where
  outside h := absurd hsync h
  inside _ := ⟨hlow, hhigh⟩
  fic _ := hfic
  msc _ := hmsc
  ficMost := hfic ▸ Nat.mul_le_mul_right _ (Nat.min_le_right _ _)
  mscMost := hmsc ▸ Nat.mul_le_mul_right _ (by unfold mscSymbolsBefore; omega)

/-- With empty buffers the position is the head of a frame: 1, or 2 after the phase reference (R172, R174, R193). -/
theorem frameOk_head {s : State} (h2 : 2 ≤ s.cfg.symbols) (hfic : s.sym.ficbuf = []) (hmsc : s.sym.mscbuf = [])
    (hidx : s.sym.symIdx = 1 ∨ s.sync = .synchronized ∧ s.sym.symIdx = 2) : s.FrameOk := by
  have hle : s.sym.symIdx.toNat = 1 ∨ s.sym.symIdx.toNat = 2 := by
    rcases hidx with h | ⟨-, h⟩ <;> simp [h]
  by_cases hsync : s.sync = .synchronized
  · refine frameOk_inside hsync (by omega) (by omega) ?_ ?_
    · rw [hfic, ficSymbolsBefore, Nat.sub_eq_zero_of_le (by omega)]; simp
    · rw [hmsc, mscSymbolsBefore, Cfg.nHead, Nat.sub_eq_zero_of_le (by omega)]; simp
  · have hone : s.sym.symIdx = 1 := hidx.resolve_right fun h => hsync h.1
    exact frameOk_outside hsync hone (by simp [hfic]) (by simp [hmsc])

/-- Outside `Synchronized` a step that leaves the position and the buffers keeps the invariant. -/
theorem State.FrameOk.stays_outside {s t : State} (h : s.FrameOk) (hs : s.sync ≠ .synchronized)
    (ht : t.sync ≠ .synchronized) (hcfg : t.cfg = s.cfg) (hidx : t.sym.symIdx = s.sym.symIdx)
    (hfic : t.sym.ficbuf = s.sym.ficbuf) (hmsc : t.sym.mscbuf = s.sym.mscbuf) : t.FrameOk :=
  frameOk_outside ht (hidx.trans (h.outside hs)) (by rw [hfic, hcfg]; exact h.ficMost)
    (by rw [hmsc, hcfg]; exact h.mscMost)

/-- The invariant reads the configuration, `SYNC_STATE` and the symbol state only. -/
theorem State.FrameOk.congr {s t : State} (h : s.FrameOk) (hcfg : t.cfg = s.cfg) (hsync : t.sync = s.sync)
    (hsym : t.sym = s.sym) : t.FrameOk := by
  obtain ⟨h1, h2, h3, h4, h5, h6⟩ := h
  constructor <;> simpa only [hcfg, hsync, hsym]

/-! ### The steps of `PIPE` -/

theorem nullSearch_frameOk {s : State} (h : s.FrameOk) (hs : s.sync = .acquiringNull) (w : Word)
    (rest : List Word) : (nullSearch w rest s).FrameOk := by
  have hout : s.sync ≠ .synchronized := by rw [hs]; decide
  obtain ⟨u, rfl, ⟨-, g⟩ | ⟨-, v, rfl, ⟨-, g⟩ | ⟨-, g⟩⟩⟩ := nullSearch_cases w rest s <;> rw [g]
  · rw [nullFound_eq]
    exact h.stays_outside hout (by simp) rfl rfl rfl rfl
  · exact h.stays_outside hout hout rfl rfl rfl rfl
  · exact h.stays_outside hout hout rfl rfl rfl rfl

theorem acquire_frameOk {s : State} (hw : s.cfg.WellFormed) (h : s.FrameOk)
    (hs : s.sync = .acquiringPhaseReference) : (acquire s).FrameOk := by
  rcases acquire_cases s with ⟨-, g⟩ | ⟨-, g⟩ <;> rw [g]
  · rw [acquireOk_eq]
    exact frameOk_head (symbols_bounds hw).1 rfl rfl (.inr ⟨rfl, rfl⟩)
  · rw [acquireFail_eq]
    exact h.stays_outside (by rw [hs]; decide) (by simp) rfl rfl rfl rfl

/-- A tracking step decides with empty buffers (R174). -/
theorem tracked_head (s : State) :
    (tracked s).cfg = s.cfg ∧ (tracked s).sync = s.sync ∧ (tracked s).sym.ficbuf = [] ∧
      (tracked s).sym.mscbuf = [] := by
  simp [tracked_eq, sampled]

/-- A tracking step is at the head of its frame, whatever it decides (R174, R176). -/
theorem track_frameOk {s : State} (hw : s.cfg.WellFormed) (hs : s.sync = .synchronized) : (track s).FrameOk := by
  obtain ⟨hcfg, hsync, hfic, hmsc⟩ := tracked_head s
  have h2 : 2 ≤ (tracked s).cfg.symbols := by rw [hcfg]; exact (symbols_bounds hw).1
  rcases track_cases s with ⟨-, g⟩ | ⟨-, g⟩ <;> rw [g]
  · rw [trackOk_eq]
    exact frameOk_head h2 hfic hmsc (.inr ⟨hsync.trans hs, rfl⟩)
  · rcases trackFail_cases (trackSpectrum s) (tracked s) with ⟨-, e⟩ | ⟨-, e⟩ <;> rw [e]
    · exact frameOk_head h2 hfic hmsc (.inl rfl)
    · exact frameOk_head h2 hfic hmsc (.inr ⟨hsync.trans hs, rfl⟩)

/-- A data symbol inside the frame adds its soft bits to one buffer and moves the position on (R190, R191). -/
theorem symbolStep_inside_frameOk {s : State} (hw : s.cfg.WellFormed) (h : s.FrameOk)
    (hs : s.sync = .synchronized) (hlow : 2 ≤ s.sym.symIdx.toNat) (hlt : s.sym.symIdx.toNat < s.cfg.symbols) :
    (setSymIdx (s.sym.symIdx + 1) (demodulated s)).FrameOk := by
  have hnext : (s.sym.symIdx + 1).toNat = s.sym.symIdx.toNat + 1 := by
    have hmost := (symbols_bounds hw).2
    have hone : (1 : BitVec 8).toNat = 1 := rfl
    rw [BitVec.toNat_add, hone]
    omega
  have hsoft := symbolBits_length hw
  rw [demodulated_eq]
  refine frameOk_inside hs ?_ ?_ ?_ ?_ <;> dsimp only [setSymIdx, consume_cfg] <;> rw [hnext]
  · omega
  · exact hlt
  · rw [ficSymbolsBefore_succ _ hlow, Nat.add_mul, List.length_append, h.fic hs]
    split <;> simp [hsoft]
  · rw [mscSymbolsBefore_succ, Nat.add_mul, List.length_append, h.msc hs]
    split <;> simp [hsoft]

theorem symbolStep_frameOk {s : State} (hw : s.cfg.WellFormed) (h : s.FrameOk) (hs : s.sync = .synchronized)
    (hlow : 2 ≤ s.sym.symIdx.toNat) : (symbolStep s).FrameOk := by
  rcases symbolStep_cases s with ⟨hlt, g⟩ | ⟨-, u, es, hu, -, g⟩ <;> rw [g]
  · exact symbolStep_inside_frameOk hw h hs hlow hlt
  · have hcfg : u.cfg = s.cfg := hu.cfg.trans (by rw [demodulated_eq]; rfl)
    refine frameOk_head ?_ rfl rfl (.inl rfl)
    rw [raiseAll_cfg, frameClose_cfg, hcfg]
    exact (symbols_bounds hw).1

theorem pipeStep_frameOk {s : State} (hw : s.cfg.WellFormed) (h : s.FrameOk) : (pipeStep s).FrameOk := by
  rcases pipeStep_cases s with g | ⟨-, hs, g⟩ | ⟨w, rest, -, hs, -, g⟩ | ⟨-, hs, -, g⟩ | ⟨-, hs, -, -, g⟩ |
    ⟨-, hs, hlow, -, -, g⟩ <;> rw [g]
  · exact h
  · rw [beginStep_eq]
    exact h.stays_outside (by rw [hs]; decide) (by simp) rfl rfl rfl rfl
  · exact nullSearch_frameOk h hs w rest
  · exact acquire_frameOk hw h hs
  · exact track_frameOk hw hs
  · exact symbolStep_frameOk hw h hs hlow

theorem frame_keptByAgents : KeptByAgents fun s => s.cfg.WellFormed ∧ s.FrameOk where
  same s t h hs := ⟨by rw [h.cfg]; exact hs.1, hs.2.congr h.cfg h.sync h.sym⟩
  restart _ _ hs := ⟨hs.1, frameOk_head (symbols_bounds hs.1).1 rfl rfl (.inl rfl)⟩
  opens _ _ _ hs := ⟨hs.1, hs.2.congr rfl rfl rfl⟩
  closes _ _ hs := ⟨hs.1, hs.2.congr rfl rfl rfl⟩
  pipe s hs := by rw [pipeStep_cfg]; exact ⟨hs.1, pipeStep_frameOk hs.1 hs.2⟩
  push _ _ _ hs := ⟨hs.1, hs.2.congr rfl rfl rfl⟩
  fail s hs := by
    rw [sourceFailure_eq]
    exact ⟨hs.1, frameOk_outside (by simp) rfl hs.2.ficMost hs.2.mscMost⟩

/-- Settles O33: each step keeps the position, starts or ends a frame, or adds one symbol. -/
theorem frameInvariantKept : Obligations.FrameInvariantKept := frame_keptByAgents.kept

end Sys2Proof.Machine
end

section
/-! Registers with a bound: the loop and the carry keep `FINE` in half a carrier spacing, the failure counters stop at
their limits, and `RB` never exceeds its capacity (R32, R35, R61, R163). -/

namespace Sys2Proof.Machine

set_option Elab.async false

/-! ### The frequency loop -/

/-- The range of `FINE` (R32). -/
def FineInRange (f : Int) : Prop := -32768 ≤ f ∧ f ≤ 32768

/-- One loop step moves `FINE` by at most half a turn of 16 bits, so one carry brings it back (R163). -/
theorem carry_inRange (coarse : Word) {fine : Int} (hlow : -65536 ≤ fine) (hhigh : fine ≤ 65536) :
    FineInRange (carry coarse fine).2 := by
  unfold carry FineInRange
  by_cases hover : 32768 < fine
  · simp only [if_pos hover]
    split <;> constructor <;> dsimp only <;> omega
  · simp only [if_neg hover]
    split <;> constructor <;> dsimp only <;> omega

theorem arg16_natAbs_le (c : Cfg) (z : CInt) : (arg16 c z).natAbs ≤ 32768 := by
  unfold arg16
  split
  · exact Nat.zero_le _
  · exact natAbs_toInt_le _

/-- A loop gain of at most 1 does not enlarge the measured angle (R162, R349). -/
theorem loopTerm_natAbs_le {c : Cfg} (hloop : c.loopNum ≤ c.loopDen) (z : CInt) :
    (Int.tdiv ((c.loopNum : Int) * arg16 c z) (c.loopDen : Int)).natAbs ≤ 32768 := by
  rw [Int.natAbs_tdiv, Int.natAbs_mul, Int.natAbs_natCast, Int.natAbs_natCast]
  exact Nat.div_le_of_le_mul (Nat.mul_le_mul hloop (arg16_natAbs_le c z))

theorem freqUpdate_fine_inRange {c : Cfg} (hloop : c.loopNum ≤ c.loopDen) (sh : Int) (gamma : CInt)
    {f : Corrector} (h : FineInRange f.fine.toInt) : FineInRange (freqUpdate c sh gamma f).fine.toInt := by
  have hterm := loopTerm_natAbs_le hloop gamma
  have hrange := carry_inRange (f.coarse + BitVec.ofInt 32 sh)
    (fine := f.fine.toInt + Int.tdiv ((c.loopNum : Int) * arg16 c gamma) (c.loopDen : Int))
    (by have := h.1; omega) (by have := h.2; omega)
  have hfits : (freqUpdate c sh gamma f).fine.toInt = _ :=
    BitVec.toInt_ofInt_eq_self (by decide) (by have := hrange.1; omega) (by have := hrange.2; omega)
  rw [hfits]
  exact hrange

/-! ### The states within the bounds -/

theorem loop_le {c : Cfg} (h : c.WellFormed) : c.loopNum ≤ c.loopDen := by
  obtain ⟨-, ⟨-, -, -, -, -, -, -, -, -, -, hloop, -⟩, -⟩ := h
  exact hloop

theorem nLoss_pos {c : Cfg} (h : c.WellFormed) : 0 < c.nLoss := by
  obtain ⟨-, ⟨-, -, -, -, -, -, -, -, -, -, -, -, hloss, -⟩, -⟩ := h
  exact hloss

theorem State.BoundsOk.fine {s : State} (h : s.BoundsOk) : FineInRange s.freq.fine.toInt := ⟨h.fineLow, h.fineHigh⟩

/-- A step that leaves `FINE` and the failure counters, enters no frame and adds no sample keeps the bounds. -/
theorem State.BoundsOk.calm {s t : State} (h : s.BoundsOk) (hcfg : t.cfg = s.cfg)
    (hsync : t.sync = .synchronized → s.sync = .synchronized) (hfine : t.freq.fine = s.freq.fine)
    (hbad : t.cnt.badFrames = s.cnt.badFrames) (hprs : t.cnt.prsFails = s.cnt.prsFails)
    (hrb : t.rb.length ≤ s.rb.length) : t.BoundsOk where
  fineLow := by rw [hfine]; exact h.fineLow
  fineHigh := by rw [hfine]; exact h.fineHigh
  badFrames := by rw [hbad, hcfg]; exact h.badFrames
  badInSync ht := by rw [hbad, hcfg]; exact h.badInSync (hsync ht)
  prsFails := by rw [hprs, hcfg]; exact h.prsFails
  ring := by rw [hcfg]; exact Nat.le_trans hrb h.ring

/-- A phase-reference step decides on a state within the bounds. -/
theorem State.BoundsOk.sampled {s : State} (h : s.BoundsOk) (n : Nat) : (sampled n s).BoundsOk :=
  h.calm rfl id rfl rfl rfl (by simp [Machine.sampled])

theorem State.BoundsOk.tracked {s : State} (h : s.BoundsOk) : (tracked s).BoundsOk := by
  rw [tracked_eq]
  exact (h.sampled (trackLen s.cfg)).calm rfl id rfl rfl rfl (Nat.le_refl _)

theorem corrected_fine_inRange {s : State} (hw : s.cfg.WellFormed) (h : s.BoundsOk) (y : List CInt) (gamma : CInt) :
    FineInRange (corrected s y gamma).fine.toInt := freqUpdate_fine_inRange (loop_le hw) _ gamma h.fine

theorem acquireOk_boundsOk {s : State} (hw : s.cfg.WellFormed) (h : s.BoundsOk) (y : List CInt) (gamma : CInt) :
    (acquireOk y gamma s).BoundsOk := by
  have hfine := corrected_fine_inRange hw h y gamma
  rw [acquireOk_eq]
  exact ⟨hfine.1, hfine.2, Nat.zero_le _, fun _ => nLoss_pos hw, Nat.zero_le _, h.ring⟩

theorem nextPrsFails_le (s : State) : (nextPrsFails s).toNat ≤ s.cfg.prsFailMax := by
  rw [nextPrsFails, BitVec.toNat_ofNat]
  exact Nat.le_trans (Nat.mod_le _ _) (Nat.min_le_right _ _)

theorem acquireFail_boundsOk {s : State} (h : s.BoundsOk) : (acquireFail s).BoundsOk := by
  rw [acquireFail_eq]
  exact ⟨h.fineLow, h.fineHigh, h.badFrames, nofun, nextPrsFails_le s, h.ring⟩

theorem trackOk_boundsOk {s : State} (hw : s.cfg.WellFormed) (h : s.BoundsOk) (y : List CInt) (gamma : CInt) :
    (trackOk y gamma s).BoundsOk := by
  have hfine := corrected_fine_inRange hw h y gamma
  rw [trackOk_eq]
  exact ⟨hfine.1, hfine.2, Nat.zero_le _, fun _ => nLoss_pos hw, h.prsFails, h.ring⟩

/-- One more bad frame reaches the limit only when it also loses the frame position (R35, R176). -/
theorem trackFail_boundsOk {s : State} (h : s.BoundsOk) (hs : s.sync = .synchronized) (y : List CInt) :
    (trackFail y s).BoundsOk := by
  have hmost : (s.cnt.badFrames + 1).toNat ≤ s.cfg.nLoss := by
    rw [BitVec.toNat_add]
    exact Nat.le_trans (Nat.mod_le _ _) (h.badInSync hs)
  rcases trackFail_cases y s with ⟨-, e⟩ | ⟨hlt, e⟩ <;> rw [e]
  · exact ⟨h.fineLow, h.fineHigh, hmost, nofun, h.prsFails, h.ring⟩
  · exact ⟨h.fineLow, h.fineHigh, hmost, fun _ => hlt, h.prsFails, h.ring⟩

/-! ### The steps of `PIPE` -/

theorem nullSearch_boundsOk {w : Word} {rest : List Word} {s : State} (h : s.BoundsOk)
    (hs : s.sync = .acquiringNull) (hrb : s.rb = w :: rest) : (nullSearch w rest s).BoundsOk := by
  have hlen : rest.length ≤ s.rb.length := by simp [hrb]
  have hout : s.sync ≠ .synchronized := by rw [hs]; decide
  obtain ⟨u, rfl, ⟨-, g⟩ | ⟨-, v, rfl, ⟨-, g⟩ | ⟨-, g⟩⟩⟩ := nullSearch_cases w rest s <;> rw [g]
  · rw [nullFound_eq]
    exact h.calm rfl nofun rfl rfl rfl hlen
  · exact h.calm rfl id rfl rfl rfl hlen
  · exact h.calm rfl id rfl rfl rfl hlen

theorem acquire_boundsOk {s : State} (hw : s.cfg.WellFormed) (h : s.BoundsOk) : (acquire s).BoundsOk := by
  have hdecides := h.sampled (acquireLen s.cfg)
  rcases acquire_cases s with ⟨-, g⟩ | ⟨-, g⟩ <;> rw [g]
  · exact acquireOk_boundsOk (by rw [sampled_cfg]; exact hw) hdecides _ _
  · exact acquireFail_boundsOk hdecides

theorem track_boundsOk {s : State} (hw : s.cfg.WellFormed) (h : s.BoundsOk) (hs : s.sync = .synchronized) :
    (track s).BoundsOk := by
  obtain ⟨hcfg, hsync, -, -⟩ := tracked_head s
  rcases track_cases s with ⟨-, g⟩ | ⟨-, g⟩ <;> rw [g]
  · exact trackOk_boundsOk (hcfg ▸ hw) h.tracked _ _
  · exact trackFail_boundsOk h.tracked (hsync.trans hs) _

theorem State.BoundsOk.demodulated {s : State} (h : s.BoundsOk) : (demodulated s).BoundsOk := by
  rw [demodulated_eq]
  exact h.calm rfl id rfl rfl rfl (by simp)

theorem symbolStep_boundsOk {s : State} (h : s.BoundsOk) : (symbolStep s).BoundsOk := by
  rcases symbolStep_cases s with ⟨-, g⟩ | ⟨-, u, es, hu, -, g⟩ <;> rw [g]
  · exact h.demodulated.calm rfl id rfl rfl rfl (Nat.le_refl _)
  · exact h.demodulated.calm hu.cfg (fun hsync => hu.sync ▸ hsync) (congrArg Corrector.fine hu.freq) hu.badFrames
      hu.prsFails (Nat.le_of_eq (congrArg List.length hu.rb))

theorem pipeStep_boundsOk {s : State} (hw : s.cfg.WellFormed) (h : s.BoundsOk) : (pipeStep s).BoundsOk := by
  rcases pipeStep_cases s with g | ⟨-, hs, g⟩ | ⟨w, rest, -, hs, hrb, g⟩ | ⟨-, -, -, g⟩ | ⟨-, hs, -, -, g⟩ |
    ⟨-, -, -, -, -, g⟩ <;> rw [g]
  · exact h
  · rw [beginStep_eq]
    exact h.calm rfl nofun rfl rfl rfl (Nat.le_refl _)
  · exact nullSearch_boundsOk h hs hrb
  · exact acquire_boundsOk hw h
  · exact track_boundsOk hw h hs
  · exact symbolStep_boundsOk h

/-- Cleared registers and an empty `RB` are within the bounds (R53, R112). -/
theorem boundsOk_of_cleared {s : State} (hfreq : s.freq = ⟨0, 0, 0, 0, 0⟩) (hcnt : s.cnt = Counters.zero)
    (hsync : s.sync ≠ .synchronized) (hrb : s.rb = []) : s.BoundsOk where
  fineLow := by rw [hfreq]; decide
  fineHigh := by rw [hfreq]; decide
  badFrames := by rw [hcnt]; exact Nat.zero_le _
  badInSync h := absurd h hsync
  prsFails := by rw [hcnt]; exact Nat.zero_le _
  ring := by rw [hrb]; exact Nat.zero_le _

theorem bounds_keptByAgents : KeptByAgents fun s => s.cfg.WellFormed ∧ s.BoundsOk where
  same s t h hs := by
    have hcalm : t.BoundsOk := hs.2.calm h.cfg (fun ht => h.sync ▸ ht) (congrArg Corrector.fine h.freq) h.badFrames
      h.prsFails (Nat.le_of_eq (congrArg List.length h.rb))
    exact ⟨by rw [h.cfg]; exact hs.1, hcalm⟩
  restart _ _ hs := ⟨hs.1, boundsOk_of_cleared rfl rfl nofun rfl⟩
  opens _ _ _ hs := ⟨hs.1, hs.2.calm rfl id rfl rfl rfl (Nat.le_refl _)⟩
  closes _ _ hs := ⟨hs.1, hs.2.calm rfl id rfl rfl rfl (Nat.le_refl _)⟩
  pipe s hs := by rw [pipeStep_cfg]; exact ⟨hs.1, pipeStep_boundsOk hs.1 hs.2⟩
  push w s hroom hs := by
    obtain ⟨hw, hlow, hhigh, hbad, hsync, hprs, -⟩ := hs
    exact ⟨hw, hlow, hhigh, hbad, hsync, hprs, by rw [List.length_append]; exact hroom⟩
  fail s hs := by
    rw [sourceFailure_eq]
    exact ⟨hs.1, hs.2.calm rfl nofun rfl rfl rfl (Nat.le_refl _)⟩

/-- Settles O34: the carry, the counters' limits and the guard of `SRC` keep the bounds. -/
theorem registerBoundsKept : Obligations.RegisterBoundsKept := bounds_keptByAgents.kept

end Sys2Proof.Machine
end

section
/-! The remaining statements about the state: the words that read it, the frame of the commands, the growth of `EVT`,
the samples a step takes, and the reset state. -/

namespace Sys2Proof.Machine

set_option Elab.async false

/-! ### The words that read `STATUS` and `CTRL` -/

theorem bitNat_le (b : Bool) : bitNat b ≤ 1 := by cases b <;> decide

theorem bitNat_eq_one (b : Bool) : decide (bitNat b = 1) = b := by cases b <;> rfl

/-- A bit of a word that is a sum of fields, from the quotient and the remainder of the sum. -/
theorem getLsbD_ofNat {n i : Nat} {b : Bool} (hi : i < 32) (h : n / 2 ^ i % 2 = bitNat b) :
    (BitVec.ofNat 32 n).getLsbD i = b := by
  rw [BitVec.getLsbD_ofNat, decide_eq_true hi, Bool.true_and, Nat.testBit_eq_decide_div_mod_eq, h, bitNat_eq_one]

/-- A field of a word that is a sum of fields. -/
theorem extractLsb'_ofNat {n i k : Nat} {x : BitVec k} (hik : i + k ≤ 32) (h : n / 2 ^ i % 2 ^ k = x.toNat) :
    (BitVec.ofNat 32 n).extractLsb' i k = x := by
  apply BitVec.eq_of_toNat_eq
  obtain ⟨d, hd⟩ : ∃ d, 32 = i + (k + d) := ⟨32 - (i + k), by omega⟩
  rw [BitVec.extractLsb'_toNat, BitVec.toNat_ofNat, Nat.shiftRight_eq_div_pow, ← h, hd, Nat.pow_add,
    Nat.mod_mul_right_div_self, Nat.mod_mod_of_dvd _ (Nat.pow_dvd_pow 2 (Nat.le_add_right k d))]

theorem statusWord_fields (s : State) :
    (statusWord s).extractLsb' 0 2 = s.sync.code ∧ (statusWord s).getLsbD 2 = s.flags.presence ∧
    (statusWord s).getLsbD 3 = s.flags.run ∧ (statusWord s).getLsbD 4 = s.flags.scan ∧
    (statusWord s).getLsbD 5 = s.flags.srcFail ∧ (statusWord s).getLsbD 6 = s.det.nullPhase.bit ∧
    (statusWord s).getLsbD 7 = false ∧ (statusWord s).extractLsb' 8 8 = s.sym.symIdx ∧
    (statusWord s).extractLsb' 16 16 = 0 := by
  have hsync := s.sync.code.isLt
  have hidx := s.sym.symIdx.isLt
  have hpresence := bitNat_le s.flags.presence
  have hrun := bitNat_le s.flags.run
  have hscan := bitNat_le s.flags.scan
  have hfail := bitNat_le s.flags.srcFail
  have hphase := bitNat_le s.det.nullPhase.bit
  refine ⟨extractLsb'_ofNat (by decide) ?_, getLsbD_ofNat (by decide) ?_, getLsbD_ofNat (by decide) ?_,
    getLsbD_ofNat (by decide) ?_, getLsbD_ofNat (by decide) ?_, getLsbD_ofNat (by decide) ?_,
    getLsbD_ofNat (by decide) ?_, extractLsb'_ofNat (by decide) ?_, extractLsb'_ofNat (by decide) ?_⟩
  case refine_7 => change _ = 0; omega
  case refine_9 => change _ = 0; omega
  all_goals omega

theorem ctrlWord_fields (c : Ctrl) :
    (ctrlWord c).getLsbD 0 = c.enIr ∧ (ctrlWord c).getLsbD 1 = c.enConst ∧ (ctrlWord c).getLsbD 2 = c.enNullvec ∧
    (ctrlWord c).getLsbD 3 = c.enTii ∧ (ctrlWord c).extractLsb' 4 28 = 0 := by
  have hir := bitNat_le c.enIr
  have hconst := bitNat_le c.enConst
  have hnull := bitNat_le c.enNullvec
  have htii := bitNat_le c.enTii
  refine ⟨getLsbD_ofNat (by decide) ?_, getLsbD_ofNat (by decide) ?_, getLsbD_ofNat (by decide) ?_,
    getLsbD_ofNat (by decide) ?_, extractLsb'_ofNat (by decide) ?_⟩
  case refine_5 => change _ = 0; omega
  all_goals omega

theorem nullPhase_bit (y : NullPhase) : y.bit = (y == .inDip) := by cases y <;> rfl

/-- Settles O14: the fields of both words do not overlap, so each reads back. -/
theorem csrFields : Obligations.CsrFields := by
  intro s
  obtain ⟨hsync, hpresence, hrun, hscan, hfail, hphase, hseven, hidx, hhigh⟩ := statusWord_fields s
  obtain ⟨hir, hconst, hnull, htii, hrest⟩ := ctrlWord_fields s.ctrl
  exact ⟨statusWord s, ctrlWord s.ctrl, rfl, rfl, rfl, rfl, hsync, hpresence, hrun, hscan, hfail,
    hphase.trans (nullPhase_bit _), hseven, hidx, hhigh, hir, hconst, hnull, htii, hrest⟩

/-! ### The frame of the command set -/

section
variable {s t : State} {i : Instr}

theorem effect_choices (h : CommandEffect s i t) :
    t.cfg = s.cfg ∧ t.cmdq = s.cmdq ∧ t.turns = s.turns ∧ t.tick = s.tick ∧ t.draws = s.draws := by
  cases h <;> exact ⟨rfl, rfl, rfl, rfl, rfl⟩

/-- Only `RESTART` writes `PIPE`'s fields, `RB` and the flags other than `RUN` (R112). -/
theorem effect_pipeline (h : CommandEffect s i t) (hne : ∀ b, i ≠ .restart b) :
    t.sync = s.sync ∧ t.cnt = s.cnt ∧ t.det = s.det ∧ t.freq = s.freq ∧ t.sym = s.sym ∧ t.rb = s.rb ∧
    t.evt = s.evt ∧ t.flags.scan = s.flags.scan ∧ t.flags.srcFail = s.flags.srcFail ∧
    t.flags.presence = s.flags.presence := by
  cases h with
  | restart b => exact absurd rfl (hne b)
  | _ => exact ⟨rfl, rfl, rfl, rfl, rfl, rfl, rfl, rfl, rfl, rfl⟩

theorem effect_run (h : CommandEffect s i t) (hrestart : ∀ b, i ≠ .restart b) (hstop : i ≠ .stop) :
    t.flags.run = s.flags.run := by
  cases h with
  | restart b => exact absurd rfl (hrestart b)
  | stop => exact absurd rfl hstop
  | _ => rfl

theorem effect_p (h : CommandEffect s i t) (hlow : ∀ a v, i ≠ .ldpl a v) (hhigh : ∀ a v, i ≠ .ldph a v) :
    t.p = s.p := by
  cases h with
  | ldpl a v => exact absurd rfl (hlow a v)
  | ldph a v => exact absurd rfl (hhigh a v)
  | _ => rfl

theorem effect_ctrl (h : CommandEffect s i t) (hne : ∀ a, i ≠ .wrcsr a) : t.ctrl = s.ctrl := by
  cases h with
  | wrcsr a => exact absurd rfl (hne a)
  | _ => rfl

/-- A slot changes by `RESTART` or by the session command that names it (R39). -/
theorem effect_slot (h : CommandEffect s i t) (hrestart : ∀ b, i ≠ .restart b) {id : Fin 64}
    (hopen : i ≠ .sopen (subField id)) (hclose : i ≠ .sclose (subField id)) : slot t id = slot s id := by
  cases h with
  | restart b => exact absurd rfl (hrestart b)
  | sopen j => exact slot_writeSlot_other s j id _ fun e => hopen (e ▸ rfl)
  | sclose j => exact slot_writeSlot_other s j id _ fun e => hclose (e ▸ rfl)
  | _ => rfl

end

/-- Settles O22: a command has one effect of its own kind, and its response changes only `RSP`. -/
theorem commandFrame : Obligations.CommandFrame := by
  intro i s t h
  obtain ⟨u, op, st, d, hu, rfl⟩ := exec_effect h
  have hchoices := effect_choices hu
  have hpipeline := effect_pipeline hu
  have hrun := effect_run hu
  have hp := effect_p hu
  have hctrl := effect_ctrl hu
  exact ⟨hchoices, hpipeline, hrun, hp, hctrl, fun hrestart _ => effect_slot hu hrestart⟩

/-! ### Events and configuration -/

/-- The new state has the configuration of the old one and its records, with more after them. -/
def OnlyAppends (s t : State) : Prop := t.cfg = s.cfg ∧ s.evt <+: t.evt

theorem onlyAppends_of_eq {s t : State} (hcfg : t.cfg = s.cfg) (hevt : t.evt = s.evt) : OnlyAppends s t :=
  ⟨hcfg, [], by rw [hevt, List.append_nil]⟩

theorem effect_onlyAppends {s t : State} {i : Instr} (h : CommandEffect s i t) : OnlyAppends s t := by
  cases h with
  | restart b => exact ⟨rfl, ⟨_, rfl⟩⟩
  | _ => exact onlyAppends_of_eq rfl rfl

theorem step_onlyAppends {s t : State} (h : step s = .next t) : OnlyAppends s t := by
  have hcfg := afterChoice_cfg s
  have hevt := afterChoice_evt s
  suffices hc : OnlyAppends (afterChoice s) t from ⟨hc.1.trans hcfg, hevt ▸ hc.2⟩
  rcases step_cases h with ⟨w, rest, -, -, hw⟩ | ⟨-, -, rfl⟩ | ⟨-, rfl⟩ | ⟨w, -, rfl⟩ | ⟨m, -, rfl⟩ | ⟨-, rfl⟩ |
    ⟨w, -, rfl⟩ | ⟨-, rfl⟩
  · obtain ⟨i, u, op, st, d, hu, rfl⟩ := runWord_effect hw
    have happ := effect_onlyAppends hu
    exact happ
  · exact onlyAppends_of_eq rfl rfl
  · exact ⟨pipeStep_cfg _, (pipeStep_frame _).evt⟩
  · unfold srcPush; split <;> exact onlyAppends_of_eq rfl rfl
  · unfold srcMiss; split <;> exact onlyAppends_of_eq rfl rfl
  · unfold srcFailStep
    split
    · exact onlyAppends_of_eq rfl rfl
    · rw [sourceFailure_eq]
      exact ⟨rfl, ⟨_, rfl⟩⟩
  · exact onlyAppends_of_eq rfl rfl
  · exact onlyAppends_of_eq rfl rfl

theorem newEvents_of_append {s t : State} {es : List Event} (h : t.evt = s.evt ++ es) : newEvents s t = es := by
  rw [newEvents, h, List.drop_left]

/-- Settles O24: every agent's step appends records or leaves `EVT`. -/
theorem eventsOnlyAppend : Obligations.EventsOnlyAppend := by
  intro s t h
  obtain ⟨hcfg, es, hes⟩ := step_onlyAppends h
  exact ⟨hcfg, ⟨es, hes⟩, by rw [newEvents_of_append hes.symm, hes]⟩

/-! ### The samples of a step -/

theorem nullSearch_rb (w : Word) (rest : List Word) (s : State) : (nullSearch w rest s).rb = rest := by
  obtain ⟨u, rfl, ⟨-, g⟩ | ⟨-, v, rfl, ⟨-, g⟩ | ⟨-, g⟩⟩⟩ := nullSearch_cases w rest s <;> rw [g]
  · rw [nullFound_eq]; rfl
  · rfl

theorem acquire_rb (s : State) : (acquire s).rb = s.rb.drop (acquireLen s.cfg) := by
  rcases acquire_cases s with ⟨-, g⟩ | ⟨-, g⟩ <;> rw [g]
  · rw [acquireOk_eq]; rfl
  · rw [acquireFail_eq]; rfl

theorem tracked_rb (s : State) : (tracked s).rb = s.rb.drop (trackLen s.cfg) := by
  rw [tracked_eq]; rfl

theorem track_rb (s : State) : (track s).rb = s.rb.drop (trackLen s.cfg) := by
  rw [← tracked_rb]
  rcases track_cases s with ⟨-, g⟩ | ⟨-, g⟩ <;> rw [g]
  · rw [trackOk_eq]; rfl
  · rcases trackFail_cases (trackSpectrum s) (tracked s) with ⟨-, e⟩ | ⟨-, e⟩ <;> rw [e] <;> rfl

theorem demodulated_rb (s : State) : (demodulated s).rb = s.rb.drop s.cfg.tS := by
  rw [demodulated_eq]; rfl

theorem symbolStep_rb (s : State) : (symbolStep s).rb = s.rb.drop s.cfg.tS := by
  rw [← demodulated_rb]
  rcases symbolStep_cases s with ⟨-, g⟩ | ⟨-, u, es, hu, -, g⟩ <;> rw [g]
  · rfl
  · exact hu.rb

theorem beginStep_rb (s : State) : (beginStep s).rb = s.rb := by
  rw [beginStep_eq]; rfl

/-- The step of `PIPE` takes the `n` oldest samples, or holds while there are fewer. -/
def TakesOrHolds (n : Nat) (s : State) : Prop :=
  (n ≤ s.rb.length → (pipeStep s).rb = s.rb.drop n) ∧ (s.rb.length < n → pipeStep s = s)

theorem takesOrHolds_of_eq {n : Nat} {s t : State} (h : pipeStep s = if n ≤ s.rb.length then t else s)
    (ht : t.rb = s.rb.drop n) : TakesOrHolds n s :=
  ⟨fun hn => by rw [h, if_pos hn, ht], fun hn => by rw [h, if_neg (Nat.not_le_of_lt hn)]⟩

theorem begin_takes {s : State} (hrun : s.flags.run = true) (hs : s.sync = .unsynchronized) : TakesOrHolds 0 s :=
  takesOrHolds_of_eq (t := beginStep s) (by simp [pipeStep, pipeRun, hrun, hs]) (beginStep_rb s)

theorem nullSearch_takes {s : State} (hrun : s.flags.run = true) (hs : s.sync = .acquiringNull) :
    TakesOrHolds 1 s := by
  cases hrb : s.rb with
  | nil => exact takesOrHolds_of_eq (t := s) (by simp [pipeStep, pipeRun, hrun, hs, hrb]) (by simp [hrb])
  | cons w rest =>
    exact takesOrHolds_of_eq (t := nullSearch w rest s) (by simp [pipeStep, pipeRun, hrun, hs, hrb])
      (by rw [nullSearch_rb, hrb]; rfl)

theorem acquire_takes {s : State} (hrun : s.flags.run = true) (hs : s.sync = .acquiringPhaseReference) :
    TakesOrHolds (acquireLen s.cfg) s :=
  takesOrHolds_of_eq (by simp [pipeStep, pipeRun, hrun, hs]) (acquire_rb s)

theorem track_takes {s : State} (hrun : s.flags.run = true) (hs : s.sync = .synchronized)
    (hidx : s.sym.symIdx.toNat = 1) : TakesOrHolds (trackLen s.cfg) s :=
  takesOrHolds_of_eq (by simp [pipeStep, pipeRun, hrun, hs, hidx]) (track_rb s)

theorem symbolStep_takes {s : State} (hrun : s.flags.run = true) (hs : s.sync = .synchronized)
    (hlow : 2 ≤ s.sym.symIdx.toNat) (hhigh : s.sym.symIdx.toNat ≤ s.cfg.symbols) : TakesOrHolds s.cfg.tS s :=
  takesOrHolds_of_eq (by simp [pipeStep, pipeRun, hrun, hs, hlow, hhigh, Nat.ne_of_gt hlow]) (symbolStep_rb s)

/-- Settles O50: each row of the table of R22 takes its own number of samples, or the step holds. -/
theorem pipeTakesTableSamples : Obligations.PipeTakesTableSamples := by
  intro s hrun hpos
  change TakesOrHolds (samplesNeeded s) s
  unfold samplesNeeded
  cases hs : s.sync with
  | unsynchronized => exact begin_takes hrun hs
  | acquiringNull => exact nullSearch_takes hrun hs
  | acquiringPhaseReference => exact acquire_takes hrun hs
  | synchronized =>
    obtain ⟨hlow, hhigh⟩ := hpos hs
    dsimp only
    split
    · next hone => exact track_takes hrun hs hone
    · next hne => exact symbolStep_takes hrun hs (by omega) hhigh

/-! ### The reset state -/

/-- The invariants hold in the reset state of any configuration with a window and two symbols (R53). -/
theorem resetWith_invariants {c : Cfg} (hwin : 0 < c.wNull) (hsym : 2 ≤ c.symbols) :
    (State.resetWith c).DetectorOk ∧ (State.resetWith c).SlotsOk ∧ (State.resetWith c).FrameOk ∧
    (State.resetWith c).BoundsOk ∧ (State.resetWith c).SoftsOk := by
  have hclosed (id : Fin 64) : slot (State.resetWith c) id = none := slot_of_closed rfl id
  refine ⟨(detectorOk_iff _).mpr (Detector.zero_inBounds hwin), slotsOk_of_closed hclosed,
    frameOk_head hsym rfl rfl (.inl rfl), boundsOk_of_cleared rfl rfl nofun rfl, nofun, nofun, ?_⟩
  intro id y _ _ hy
  rw [hclosed] at hy
  cases hy

theorem wNull_pos {c : Cfg} (h : c.WellFormed) : 0 < c.wNull := by
  obtain ⟨-, ⟨hwin, -⟩, -⟩ := h
  exact hwin

/-- Settles O36: reset clears every item, and cleared items satisfy the invariants. -/
theorem resetMeetsInvariants : Obligations.ResetMeetsInvariants := by
  have hreset := resetWith_invariants (c := cfgModeI) (by decide) (by decide)
  obtain ⟨hdet, hslots, hframe, hbounds, hsofts⟩ := hreset
  exact ⟨fun c h => resetWith_invariants (wNull_pos h) (symbols_bounds h).1, hdet, hslots, hframe, hbounds, hsofts,
    rfl, rfl, rfl, rfl, rfl, rfl, rfl, rfl, slot_of_closed rfl, rfl, rfl, rfl, rfl, rfl⟩

end Sys2Proof.Machine
end

section
/-! `EV_PRESENCE`: every step announces the change of the bit it makes and nothing else, except that a null-search
timeout announces the negative verdict in any case (R25, R147, R179). -/

namespace Sys2Proof.Machine

set_option Elab.async false

/-! ### Records by code -/

theorem withCode_append (c : BitVec 8) (es fs : List Event) : withCode c (es ++ fs) = withCode c es ++ withCode c fs :=
  List.filter_append ..

theorem withCode_eq_nil {c : BitVec 8} {es : List Event} (h : ∀ e ∈ es, e.code ≠ c) : withCode c es = [] :=
  List.filter_eq_nil_iff.mpr fun e he => by simpa using h e he

theorem presenceRecords_self (b : Bool) : presenceRecords b b = [] := if_pos rfl

theorem withPresence_presenceRecords (old new : Bool) :
    withCode 0x04 (presenceRecords old new) = presenceRecords old new := by
  unfold presenceRecords
  split <;> rfl

theorem withPresence_syncRecords (old new : SyncState) : withCode 0x04 (syncRecords old new) = [] := by
  unfold syncRecords
  split <;> rfl

theorem withPresence_freqRecords (f : Corrector) : withCode 0x04 (freqRecords f) = [] := by
  unfold freqRecords
  split <;> rfl

theorem withPresence_enabledRecords (b : Bool) {e : Event} (h : e.code ≠ 0x04) :
    withCode 0x04 (enabledRecords b e) = [] := by
  apply withCode_eq_nil
  cases b
  · nofun
  · intro x hx
    rwa [List.mem_singleton.mp hx]

theorem withPresence_impulseRecords (s : State) (y : List CInt) : withCode 0x04 (impulseRecords s y) = [] :=
  withPresence_enabledRecords _ (by simp [evImpulse])

theorem withPresence_tiiRecords (s : State) (v : List Word) : withCode 0x04 (tiiRecords s v) = [] := by
  unfold tiiRecords
  split
  · split <;> rfl
  · rfl

theorem withPresence_headRecords (s : State) (v : List Word) : withCode 0x04 (headRecords s v) = [] := by
  rw [headRecords, withCode_append, withCode_append, withPresence_tiiRecords,
    withPresence_enabledRecords _ (by simp [evNullvec])]
  rfl

theorem DecoderRecords.withPresence {es : List Event} (h : DecoderRecords es) : withCode 0x04 es = [] :=
  withCode_eq_nil fun e he heq => by
    have hcode := h e he
    rw [heq] at hcode
    exact absurd hcode (by decide)

/-! ### What a step announces -/

/-- The `EV_PRESENCE` records between the states are those of the change of the bit (R179). -/
def AnnouncesPresence (s t : State) : Prop :=
  ∃ es, t.evt = s.evt ++ es ∧ withCode 0x04 es = presenceRecords s.flags.presence t.flags.presence

/-- A null-search timeout raises the negative verdict alone and restarts the search (R147). -/
structure SearchTimesOut (s t : State) : Prop where
  searching : s.sync = .acquiringNull
  stays : t.sync = .acquiringNull
  limit : s.cfg.nullTimeout ≤ (s.det.nsCount + 1).toNat
  record : t.evt = s.evt ++ [evPresence false]
  presence : t.flags.presence = false
  restarted : t.det.nsCount = 0

/-- Records raised on a state in which only the presence bit may differ. -/
theorem announces_raising {s t : State} {es : List Event} (hevt : t.evt = s.evt)
    (hes : withCode 0x04 es = presenceRecords s.flags.presence t.flags.presence) :
    AnnouncesPresence s (raiseAll es t) := ⟨es, by rw [raiseAll_evt, hevt], hes⟩

/-- Records of other codes on a state with the same presence bit. -/
theorem announces_others {s t : State} {es : List Event} (hevt : t.evt = s.evt)
    (hflags : t.flags.presence = s.flags.presence) (hes : withCode 0x04 es = []) : AnnouncesPresence s (raiseAll es t) :=
  announces_raising hevt (by rw [hes, hflags, presenceRecords_self])

theorem announces_nothing {s t : State} (hevt : t.evt = s.evt) (hflags : t.flags.presence = s.flags.presence) :
    AnnouncesPresence s t := ⟨[], by simp [hevt], by rw [hflags, presenceRecords_self]; rfl⟩

/-- What comes before an announcement may raise records of other codes. -/
theorem AnnouncesPresence.after_others {s u t : State} (h : AnnouncesPresence u t)
    (hflags : u.flags.presence = s.flags.presence) {es : List Event} (hevt : u.evt = s.evt ++ es)
    (hes : withCode 0x04 es = []) : AnnouncesPresence s t := by
  obtain ⟨fs, hfs, hcode⟩ := h
  exact ⟨es ++ fs, by rw [hfs, hevt, List.append_assoc], by rw [withCode_append, hes, hcode, hflags]; rfl⟩

/-! ### The null search -/

theorem searchSense_nsCount (c : Cfg) (w : Word) (d : Detector) : (searchSense c w d).nsCount = d.nsCount + 1 := rfl

theorem dipUpdate_nsCount (c : Cfg) (d : Detector) : (dipUpdate c d).nsCount = d.nsCount := by
  unfold dipUpdate
  split
  · split <;> rfl
  · dsimp only
    split <;> rfl

theorem nullFound_announces (s : State) : AnnouncesPresence s (nullFound s) := by
  rw [nullFound_eq]
  exact announces_raising rfl
    (by rw [withCode_append, withPresence_syncRecords, withPresence_presenceRecords]; rfl)

/-- A null-search step announces a change of the bit, or it times out (R145, R147). -/
theorem nullSearch_presence {s : State} (hs : s.sync = .acquiringNull) (w : Word) (rest : List Word) :
    AnnouncesPresence s (nullSearch w rest s) ∨ SearchTimesOut s (nullSearch w rest s) := by
  obtain ⟨u, rfl, ⟨-, g⟩ | ⟨-, v, rfl, ⟨hlimit, g⟩ | ⟨-, g⟩⟩⟩ := nullSearch_cases w rest s <;> rw [g]
  · exact .inl (nullFound_announces _)
  · rw [dipUpdate_nsCount, searchSense_nsCount] at hlimit
    exact .inr ⟨hs, hs, hlimit, rfl, rfl, rfl⟩
  · exact .inl (announces_nothing rfl rfl)

/-- The search times out on the sample that brings the count to its limit without ending the null symbol (R147). -/
theorem nullSearch_timesOut {s : State} (hs : s.sync = .acquiringNull) {w : Word} (rest : List Word)
    (hends : nullEnds s.cfg (searchSense s.cfg w s.det) = false)
    (hlimit : s.cfg.nullTimeout ≤ (s.det.nsCount + 1).toNat) : SearchTimesOut s (nullSearch w rest s) := by
  obtain ⟨u, rfl, ⟨hnull, -⟩ | ⟨-, v, rfl, ⟨-, g⟩ | ⟨hlt, -⟩⟩⟩ := nullSearch_cases w rest s
  · exact absurd (hends.symm.trans hnull) Bool.false_ne_true
  · rw [g]
    exact ⟨hs, hs, hlimit, rfl, rfl, rfl⟩
  · rw [dipUpdate_nsCount, searchSense_nsCount] at hlt
    exact absurd hlimit (Nat.not_le_of_lt hlt)

/-! ### The other steps of `PIPE` -/

theorem acquireOk_announces (y : List CInt) (gamma : CInt) (s : State) :
    AnnouncesPresence s (acquireOk y gamma s) := by
  rw [acquireOk_eq]
  refine announces_raising rfl ?_
  simp only [withCode_append, withPresence_syncRecords, withPresence_presenceRecords, withPresence_freqRecords,
    withPresence_impulseRecords, List.nil_append, List.append_nil]

theorem acquireFail_announces (s : State) : AnnouncesPresence s (acquireFail s) := by
  rw [acquireFail_eq]
  exact announces_raising rfl
    (by rw [withCode_append, withPresence_syncRecords, withPresence_presenceRecords]; rfl)

theorem acquire_announces (s : State) : AnnouncesPresence s (acquire s) := by
  rcases acquire_cases s with ⟨-, g⟩ | ⟨-, g⟩ <;> rw [g]
  · exact acquireOk_announces _ _ (sampled _ s)
  · exact acquireFail_announces (sampled _ s)

theorem trackOk_announces (y : List CInt) (gamma : CInt) (s : State) : AnnouncesPresence s (trackOk y gamma s) := by
  rw [trackOk_eq]
  exact announces_others rfl rfl (by rw [withCode_append, withPresence_freqRecords, withPresence_impulseRecords]; rfl)

theorem trackFail_announces (y : List CInt) (s : State) : AnnouncesPresence s (trackFail y s) := by
  rcases trackFail_cases y s with ⟨-, e⟩ | ⟨-, e⟩ <;> rw [e]
  · exact announces_others rfl rfl (withPresence_syncRecords _ _)
  · exact announces_others rfl rfl (withPresence_impulseRecords _ _)

theorem track_announces (s : State) : AnnouncesPresence s (track s) := by
  have hflags : (tracked s).flags.presence = s.flags.presence := by simp [tracked_eq, sampled]
  have hevt : (tracked s).evt = s.evt ++ headRecords (sampled (trackLen s.cfg) s)
      (nullVector s.cfg (consumedRaw (trackLen s.cfg) s)) := by simp [tracked_eq, sampled]
  have hes := withPresence_headRecords (sampled (trackLen s.cfg) s)
    (nullVector s.cfg (consumedRaw (trackLen s.cfg) s))
  rcases track_cases s with ⟨-, g⟩ | ⟨-, g⟩ <;> rw [g]
  · exact (trackOk_announces _ _ _).after_others hflags hevt hes
  · exact (trackFail_announces _ _).after_others hflags hevt hes

theorem DecodesTo.announces {s t : State} (h : DecodesTo s t) : AnnouncesPresence s t := by
  obtain ⟨es, hevt, hes⟩ := h.records
  exact ⟨es, hevt, by rw [hes.withPresence, h.flags, presenceRecords_self]⟩

theorem symbolStep_announces (s : State) : AnnouncesPresence s (symbolStep s) := by
  have hdem : (demodulated s).evt = s.evt ∧ (demodulated s).flags = s.flags := by simp [demodulated_eq]
  rcases symbolStep_cases s with ⟨-, g⟩ | ⟨-, u, es, hu, hes, g⟩ <;> rw [g]
  · exact announces_nothing hdem.1 (by rw [setSymIdx_flags, hdem.2])
  · obtain ⟨fs, hfs, hcode⟩ := hu.records
    have hother : AnnouncesPresence u (raiseAll es (frameClose u)) :=
      announces_others rfl rfl (by rw [hes]; exact withPresence_enabledRecords _ (by simp [evConst]))
    exact hother.after_others (by rw [hu.flags, hdem.2]) (by rw [hfs, hdem.1]) hcode.withPresence

theorem pipeStep_presence (s : State) : AnnouncesPresence s (pipeStep s) ∨ SearchTimesOut s (pipeStep s) := by
  rcases pipeStep_cases s with g | ⟨-, -, g⟩ | ⟨w, rest, -, hs, -, g⟩ | ⟨-, -, -, g⟩ | ⟨-, -, -, -, g⟩ |
    ⟨-, -, -, -, -, g⟩ <;> rw [g]
  · exact .inl (announces_nothing rfl rfl)
  · rw [beginStep_eq]
    exact .inl (announces_others rfl rfl (withPresence_syncRecords _ _))
  · exact nullSearch_presence hs w rest
  · exact .inl (acquire_announces s)
  · exact .inl (track_announces s)
  · exact .inl (symbolStep_announces s)

/-! ### Every step -/

theorem effect_announces {s t : State} {i : Instr} (h : CommandEffect s i t) : AnnouncesPresence s t := by
  cases h with
  | restart b =>
    exact announces_raising rfl
      (by rw [restartRecords, withCode_append, withPresence_syncRecords, withPresence_presenceRecords]; rfl)
  | _ => exact announces_nothing rfl rfl

theorem sourceFailure_announces (s : State) : AnnouncesPresence s (sourceFailure s) := by
  rw [sourceFailure_eq]
  refine announces_raising rfl ?_
  rw [withCode_append, withCode_append, withPresence_syncRecords, withPresence_presenceRecords]
  rfl

theorem afterChoice_announces {s t : State} : AnnouncesPresence (afterChoice s) t ↔ AnnouncesPresence s t := by
  simp only [AnnouncesPresence, afterChoice_evt, afterChoice_flags]

theorem SearchTimesOut.of_afterChoice {s t : State} (h : SearchTimesOut (afterChoice s) t) : SearchTimesOut s t := by
  obtain ⟨h1, h2, h3, h4, h5, h6⟩ := h
  rw [afterChoice_sync] at h1
  rw [afterChoice_cfg, afterChoice_det] at h3
  rw [afterChoice_evt] at h4
  exact ⟨h1, h2, h3, h4, h5, h6⟩

/-- A step announces the change of the bit, or it is a null-search timeout. -/
theorem step_presence {s t : State} (h : step s = .next t) :
    AnnouncesPresence s t ∨ chosenTurn s = .pipe ∧ SearchTimesOut s t := by
  rw [← afterChoice_announces]
  rcases step_cases h with ⟨w, rest, -, -, hw⟩ | ⟨-, -, rfl⟩ | ⟨hturn, rfl⟩ | ⟨w, -, rfl⟩ | ⟨m, -, rfl⟩ |
    ⟨-, rfl⟩ | ⟨w, -, rfl⟩ | ⟨-, rfl⟩
  · obtain ⟨i, u, op, st, d, hu, rfl⟩ := runWord_effect hw
    obtain ⟨es, hevt, hes⟩ := effect_announces hu
    exact .inl ⟨es, hevt, hes⟩
  · exact .inl (announces_nothing rfl rfl)
  · exact (pipeStep_presence _).imp id fun ht => ⟨hturn, ht.of_afterChoice⟩
  · unfold srcPush; split <;> exact .inl (announces_nothing rfl rfl)
  · unfold srcMiss; split <;> exact .inl (announces_nothing rfl rfl)
  · unfold srcFailStep
    split
    · exact .inl (announces_nothing rfl rfl)
    · exact .inl (sourceFailure_announces _)
  · exact .inl (announces_nothing rfl rfl)
  · exact .inl (announces_nothing rfl rfl)

theorem presenceRecords_of_ne {old new : Bool} (h : new ≠ old) : presenceRecords old new = [evPresence new] :=
  if_neg h.symm

/-- `PIPE`'s turn in a running null search with a sample waiting is a null-search step (R145). -/
theorem step_of_nullSearch {s t : State} (h : step s = .next t) (hturn : chosenTurn s = .pipe)
    (hrun : s.flags.run = true) (hs : s.sync = .acquiringNull) {w : Word} {rest : List Word} (hrb : s.rb = w :: rest) :
    t = nullSearch w rest (afterChoice s) := by
  unfold step at h
  rw [hturn] at h
  cases h
  simp [pipeStep, pipeRun, hrun, hs, hrb]

/-- Settles O29: a step announces the change it makes, and only a timeout announces the verdict without one. -/
theorem presenceEvents : Obligations.PresenceEvents := by
  intro s t h
  refine ⟨fun hne => ?_, fun heq hsome => ?_, fun w rest hturn hrun hs hrb hends hlimit => ?_⟩
  · rcases step_presence h with ⟨es, hevt, hes⟩ | ⟨-, ht⟩
    · rw [newEvents_of_append hevt, hes, presenceRecords_of_ne hne]; rfl
    · rw [newEvents_of_append ht.record, ht.presence]; rfl
  · rcases step_presence h with ⟨es, hevt, hes⟩ | ⟨hturn, ht⟩
    · rw [newEvents_of_append hevt, hes, heq, presenceRecords_self] at hsome
      exact absurd rfl hsome
    · exact ⟨by rw [newEvents_of_append ht.record]; rfl, ht.presence, hturn, ht.searching, ht.stays, ht.limit⟩
  · have ht : SearchTimesOut s t := by
      rw [step_of_nullSearch h hturn hrun hs hrb]
      exact (nullSearch_timesOut (by rw [afterChoice_sync, hs]) rest (by rw [afterChoice_cfg, afterChoice_det, hends])
        (by rw [afterChoice_cfg, afterChoice_det]; exact hlimit)).of_afterChoice
    exact ⟨newEvents_of_append ht.record, ht.restarted⟩

end Sys2Proof.Machine
end

section
/-! Soft bits: the demodulator yields them in `[-127, 127]`, and every other step moves them between the symbol buffers
and the de-interleavers or drops them (R69, R187, R244). -/

namespace Sys2Proof.Machine

set_option Elab.async false

/-! ### The demodulator -/

theorem softOk_iff_natAbs (x : Int) : SoftOk x ↔ x.natAbs ≤ 127 := by
  change (-127 : Int) ≤ x ∧ x ≤ (127 : Int) ↔ _
  omega

/-- A part of a whole, scaled to 127 and truncated (R187). -/
theorem softOk_tdiv {a n : Int} (h : a.natAbs ≤ n.natAbs) : SoftOk (Int.tdiv (-127 * a) n) := by
  rw [softOk_iff_natAbs, Int.natAbs_tdiv, Int.natAbs_mul, Nat.mul_comm]
  exact Nat.div_le_of_le_mul (Nat.mul_le_mul_right 127 h)

/-- Each axis is at most the 1-norm that divides it (R187). -/
theorem softpair_softOk (r : CInt) : SoftOk (softpair r).1 ∧ SoftOk (softpair r).2 := by
  unfold softpair
  dsimp only
  split
  · exact ⟨(softOk_iff_natAbs 0).mpr (Nat.zero_le _), (softOk_iff_natAbs 0).mpr (Nat.zero_le _)⟩
  · exact ⟨softOk_tdiv (by omega), softOk_tdiv (by omega)⟩

theorem softBits_softOk (c : Cfg) (y yprev : List CInt) : ∀ x ∈ softBits c y yprev, SoftOk x := by
  intro x hx
  simp only [softBits, softPairs, List.mem_append, List.mem_map] at hx
  obtain ⟨_, ⟨_, -, rfl⟩, rfl⟩ | ⟨_, ⟨_, -, rfl⟩, rfl⟩ := hx
  · exact (softpair_softOk _).1
  · exact (softpair_softOk _).2

/-! ### One session, one CIF -/

/-- Every soft bit in the session's de-interleaver is in range (R69, R49). -/
def Session.SoftsOk (x : Session) : Prop := ∀ v ∈ x.tdiH, ∀ b ∈ v, SoftOk b

/-- A push keeps vectors it held and adds the new one (R244). -/
theorem tdiPush_softsOk {v : List Soft} {x : Session} (hv : ∀ b ∈ v, SoftOk b) (hx : x.SoftsOk) :
    (tdiPush v x).SoftsOk := by
  intro w hw
  rcases List.mem_cons.mp (List.mem_of_mem_take hw) with rfl | hold
  · exact hv
  · exact hx w hold

/-- The delivery of a logical frame leaves the de-interleaver (R243). -/
theorem deliver_tdiH (id : Fin 64) (fr : List Byte) (x : Session) : (deliver id fr x).1.tdiH = x.tdiH := by
  unfold deliver
  split
  · rfl
  · rfl
  · rw [sfPush_eq]
    split
    · obtain ⟨_, _, _, h | h⟩ := sfAttempt_cases id (withFrame fr x) <;> rw [h] <;> rfl
    · rfl
  · rfl

theorem deliver_softsOk (id : Fin 64) (fr : List Byte) {x : Session} (hx : x.SoftsOk) :
    (deliver id fr x).1.SoftsOk := by
  unfold Session.SoftsOk
  rw [deliver_tdiH]
  exact hx

theorem sessionCif_softsOk (c : Cfg) (id : Fin 64) {v : List Soft} {x : Session} (hv : ∀ b ∈ v, SoftOk b)
    (hx : x.SoftsOk) : (sessionCif c id v x).1.SoftsOk := by
  unfold sessionCif
  split
  · exact hx
  · split
    · dsimp only
      split
      · exact tdiPush_softsOk hv hx
      · exact deliver_softsOk id _ (tdiPush_softsOk hv hx)
    · exact deliver_softsOk id _ hx

/-! ### The states in range -/

theorem State.SoftsOk.session {s : State} (h : s.SoftsOk) {id : Fin 64} {x : Session} (hx : slot s id = some x) :
    x.SoftsOk := fun v hv b hb => h.tdi id x v b hx hv hb

/-- Fewer soft bits in the buffers and fewer open slots satisfy the invariant too. -/
theorem State.SoftsOk.subset {s t : State} (h : s.SoftsOk) (hfic : t.sym.ficbuf ⊆ s.sym.ficbuf)
    (hmsc : t.sym.mscbuf ⊆ s.sym.mscbuf) (hslot : ∀ id x, slot t id = some x → slot s id = some x) : t.SoftsOk where
  fic x hx := h.fic x (hfic hx)
  msc x hx := h.msc x (hmsc hx)
  tdi id y v x hy := h.tdi id y v x (hslot id y hy)

theorem slot_eq_of_sess {s t : State} (h : t.sess = s.sess) (id : Fin 64) : slot t id = slot s id := by
  unfold slot
  rw [h]

/-- The invariant reads the two buffers and the session table only. -/
theorem State.SoftsOk.congr {s t : State} (h : s.SoftsOk) (hfic : t.sym.ficbuf = s.sym.ficbuf)
    (hmsc : t.sym.mscbuf = s.sym.mscbuf) (hsess : t.sess = s.sess) : t.SoftsOk :=
  h.subset (hfic ▸ List.Subset.refl _) (hmsc ▸ List.Subset.refl _) fun id _ hx => slot_eq_of_sess hsess id ▸ hx

/-- A frame starts with empty buffers (R172, R174, R193). -/
theorem State.SoftsOk.cleared {s t : State} (h : s.SoftsOk) (hfic : t.sym.ficbuf = []) (hmsc : t.sym.mscbuf = [])
    (hsess : t.sess = s.sess) : t.SoftsOk :=
  h.subset (by simp [hfic]) (by simp [hmsc]) fun id _ hx => slot_eq_of_sess hsess id ▸ hx

/-- A slot may be written with a session in range. -/
theorem State.SoftsOk.writeSlot {s : State} (h : s.SoftsOk) (id : Fin 64) {x : Session} (hx : x.SoftsOk) :
    (writeSlot id (some x) s).SoftsOk where
  fic := h.fic
  msc := h.msc
  tdi j y v b hy hv hb := by
    by_cases hj : id = j
    · subst hj
      rw [slot_writeSlot_self] at hy
      cases hy
      exact hx v hv b hb
    · rw [slot_writeSlot_other s id j _ hj] at hy
      exact h.tdi j y v b hy hv hb

/-! ### Decoding a frame -/

theorem fibReport_softsOk (idx : Nat) (fib : List Byte) {s : State} (h : s.SoftsOk) : (fibReport idx fib s).SoftsOk :=
  h.congr (by simp [fibReport]) (by simp [fibReport]) (by simp [fibReport])

theorem ficDecode_softsOk (f : List Soft) {s : State} (h : s.SoftsOk) : (ficDecode f s).SoftsOk :=
  List.foldlRecOn _ _ h fun _ ht _ _ => List.foldlRecOn _ _ ht fun _ hu _ _ => fibReport_softsOk _ _ hu

/-- A session is served with soft bits of the CIF (R241). -/
theorem serveSession_softsOk {cif : List Soft} (hcif : ∀ x ∈ cif, SoftOk x) {s : State} (h : s.SoftsOk)
    (id : Fin 64) : (serveSession cif s id).SoftsOk := by
  rw [serveSession_eq]
  split
  · exact h
  · next x hx =>
    have hrange : ∀ b ∈ cuRange x.desc cif, SoftOk b := fun b hb => hcif b (mem_slice _ _ _ b hb)
    exact (h.writeSlot id (sessionCif_softsOk s.cfg id hrange (h.session hx))).congr rfl rfl rfl

theorem cifProcess_softsOk {cif : List Soft} (hcif : ∀ x ∈ cif, SoftOk x) {s : State} (h : s.SoftsOk) :
    (cifProcess cif s).SoftsOk :=
  List.foldlRecOn _ _ (h.congr rfl rfl rfl) fun _ ht id _ => serveSession_softsOk hcif ht id

theorem cifsProcess_softsOk {msc : List Soft} (hmsc : ∀ x ∈ msc, SoftOk x) {s : State} (h : s.SoftsOk) :
    (cifsProcess msc s).SoftsOk :=
  List.foldlRecOn _ _ h fun _ ht _ _ => cifProcess_softsOk (fun x hx => hmsc x (mem_slice _ _ _ x hx)) ht

theorem endOfFrame_softsOk (soft : List Soft) {s : State} (h : s.SoftsOk) : (endOfFrame soft s).SoftsOk :=
  (cifsProcess_softsOk h.msc (ficDecode_softsOk s.sym.ficbuf h)).cleared rfl rfl (by simp [endOfFrame])

/-! ### The steps of `PIPE` -/

theorem nullSearch_softsOk (w : Word) (rest : List Word) {s : State} (h : s.SoftsOk) :
    (nullSearch w rest s).SoftsOk := by
  obtain ⟨u, rfl, ⟨-, g⟩ | ⟨-, v, rfl, ⟨-, g⟩ | ⟨-, g⟩⟩⟩ := nullSearch_cases w rest s <;> rw [g]
  · rw [nullFound_eq]
    exact h.congr rfl rfl rfl
  · exact h.congr rfl rfl rfl
  · exact h.congr rfl rfl rfl

theorem acquire_softsOk {s : State} (h : s.SoftsOk) : (acquire s).SoftsOk := by
  rcases acquire_cases s with ⟨-, g⟩ | ⟨-, g⟩ <;> rw [g]
  · rw [acquireOk_eq]
    exact h.cleared rfl rfl rfl
  · rw [acquireFail_eq]
    exact h.congr rfl rfl rfl

theorem tracked_softsOk {s : State} (h : s.SoftsOk) : (tracked s).SoftsOk := by
  rw [tracked_eq]
  exact h.cleared rfl rfl rfl

theorem track_softsOk {s : State} (h : s.SoftsOk) : (track s).SoftsOk := by
  have ht := tracked_softsOk h
  rcases track_cases s with ⟨-, g⟩ | ⟨-, g⟩ <;> rw [g]
  · rw [trackOk_eq]
    exact ht.congr rfl rfl rfl
  · rcases trackFail_cases (trackSpectrum s) (tracked s) with ⟨-, e⟩ | ⟨-, e⟩ <;> rw [e]
    · exact ht.congr rfl rfl rfl
    · exact ht.congr rfl rfl rfl

/-- The soft bits of a data symbol join those of the frame so far (R190, R191). -/
theorem demodulated_softsOk {s : State} (h : s.SoftsOk) : (demodulated s).SoftsOk := by
  have hbits : ∀ x ∈ symbolBits s, SoftOk x := softBits_softOk _ _ _
  rw [demodulated_eq]
  refine ⟨fun x hx => ?_, fun x hx => ?_, h.tdi⟩
  · rcases List.mem_append.mp hx with hold | hnew
    · exact h.fic x hold
    · split at hnew
      · exact hbits x hnew
      · cases hnew
  · rcases List.mem_append.mp hx with hold | hnew
    · exact h.msc x hold
    · split at hnew
      · cases hnew
      · exact hbits x hnew

/-- A data-symbol step goes on inside the frame or decodes it (R191, R193). -/
theorem symbolStep_eq (s : State) :
    symbolStep s = if s.sym.symIdx.toNat < s.cfg.symbols then setSymIdx (s.sym.symIdx + 1) (demodulated s)
      else endOfFrame (symbolBits s) (demodulated s) := rfl

theorem symbolStep_softsOk {s : State} (h : s.SoftsOk) : (symbolStep s).SoftsOk := by
  rw [symbolStep_eq]
  split
  · exact (demodulated_softsOk h).congr rfl rfl rfl
  · exact endOfFrame_softsOk _ (demodulated_softsOk h)

theorem pipeStep_softsOk {s : State} (h : s.SoftsOk) : (pipeStep s).SoftsOk := by
  rcases pipeStep_cases s with g | ⟨-, -, g⟩ | ⟨w, rest, -, -, -, g⟩ | ⟨-, -, -, g⟩ | ⟨-, -, -, -, g⟩ |
    ⟨-, -, -, -, -, g⟩ <;> rw [g]
  · exact h
  · rw [beginStep_eq]
    exact h.congr rfl rfl rfl
  · exact nullSearch_softsOk w rest h
  · exact acquire_softsOk h
  · exact track_softsOk h
  · exact symbolStep_softsOk h

theorem softs_keptByAgents : KeptByAgents State.SoftsOk where
  same _ _ h hs := hs.congr (by rw [h.sym]) (by rw [h.sym]) h.sess
  restart _ _ hs := hs.subset (List.nil_subset _) (List.nil_subset _) fun id x hx => by
    rw [slot_of_closed rfl] at hx
    cases hx
  opens id _ _ hs := hs.writeSlot id nofun
  closes id s hs := hs.subset (List.Subset.refl _) (List.Subset.refl _) fun j x => slot_closed_subset id j s x
  pipe _ hs := pipeStep_softsOk hs
  push _ _ _ hs := hs.congr rfl rfl rfl
  fail s hs := by
    rw [sourceFailure_eq]
    exact hs.congr rfl rfl rfl

/-- Settles O35: soft bits come from `softpair` only, and every step moves or drops them. -/
theorem softBitRangeKept : Obligations.SoftBitRangeKept := softs_keptByAgents.kept

end Sys2Proof.Machine
end

section
/-! The order of service within a CIF: a session reads and writes its own slot, so any order gives the same table and
the same records of each session (R79, R241, R242). -/

namespace Sys2Proof.Machine

set_option Elab.async false

/-! ### The records of one session -/

theorem sfPush_sub (id : Fin 64) (fr : List Byte) (x : Session) : ∀ e ∈ (sfPush id fr x).2, e.sub = subField id := by
  rw [sfPush_eq]
  split
  · obtain ⟨_, _, _, h | h⟩ := sfAttempt_cases id (withFrame fr x) <;> rw [h] <;>
      simp [evRsErrors, evFrameErrors, evSuperframe]
  · simp

theorem deliver_sub (id : Fin 64) (fr : List Byte) (x : Session) : ∀ e ∈ (deliver id fr x).2, e.sub = subField id := by
  unfold deliver
  split
  · simp [rawFrame, evSubchFrame]
  · simp [dabFrame, evFrameErrors, evSubchFrame]
  · exact sfPush_sub id fr x
  · simp

/-- Every record of a session's service carries the session's id (R98, R242). -/
theorem sessionCif_sub (c : Cfg) (id : Fin 64) (v : List Soft) (x : Session) :
    ∀ e ∈ (sessionCif c id v x).2, e.sub = subField id := by
  unfold sessionCif
  split
  · simp [evDecodeError]
  · split
    · dsimp only
      split
      · simp
      · exact deliver_sub _ _ _
    · exact deliver_sub _ _ _

theorem subField_injective {a b : Fin 64} (h : subField a = subField b) : a = b := by
  have hnat := congrArg BitVec.toNat h
  simp only [subField, BitVec.toNat_ofNat] at hnat
  omega

theorem ofSession_append (id : Fin 64) (es fs : List Event) :
    ofSession id (es ++ fs) = ofSession id es ++ ofSession id fs := List.filter_append ..

/-- The records of a session are all its own. -/
theorem ofSession_self {id : Fin 64} {es : List Event} (h : ∀ e ∈ es, e.sub = subField id) : ofSession id es = es :=
  List.filter_eq_self.mpr fun e he => by simp [h e he]

/-- The records of a session are none of another's. -/
theorem ofSession_other {a b : Fin 64} (hne : a ≠ b) {es : List Event} (h : ∀ e ∈ es, e.sub = subField a) :
    ofSession b es = [] :=
  List.filter_eq_nil_iff.mpr fun e he heq => hne (subField_injective ((h e he).symm.trans (beq_iff_eq.mp heq)))

/-! ### The service of one slot -/

/-- The slot and the records that the service of `id` gives in the state `s`; nothing for a closed slot (R241, R242). -/
def service (cif : List Soft) (s : State) (id : Fin 64) : Option (Session × List Event) :=
  (slot s id).map fun x => sessionCif s.cfg id (cuRange x.desc cif) x

/-- The slot `id` after its service. -/
def servedSlot (cif : List Soft) (s : State) (id : Fin 64) : Option Session := (service cif s id).map (·.1)

/-- The records of the service of `id`. -/
def servedRecords (cif : List Soft) (s : State) (id : Fin 64) : List Event :=
  ((service cif s id).map (·.2)).getD []

theorem writeSlot_slot (s : State) (id : Fin 64) : writeSlot id (slot s id) s = s := by
  simp [writeSlot, slot]

theorem serveSession_eq_service (cif : List Soft) (s : State) (id : Fin 64) :
    serveSession cif s id = raiseAll (servedRecords cif s id) (writeSlot id (servedSlot cif s id) s) := by
  rw [serveSession_eq]
  cases h : slot s id with
  | none =>
    have hwrite := writeSlot_slot s id
    rw [h] at hwrite
    simp [servedRecords, servedSlot, service, h, hwrite]
  | some x => simp [servedRecords, servedSlot, service, h]

theorem servedRecords_sub (cif : List Soft) (s : State) (id : Fin 64) :
    ∀ e ∈ servedRecords cif s id, e.sub = subField id := by
  unfold servedRecords service
  cases slot s id with
  | none => simp
  | some x => exact sessionCif_sub _ _ _ _

/-- A service reads the configuration and its own slot only (R242). -/
theorem service_congr (cif : List Soft) {s t : State} {id : Fin 64} (hcfg : t.cfg = s.cfg)
    (hslot : slot t id = slot s id) : service cif t id = service cif s id := by
  rw [service, service, hcfg, hslot]

/-- The service of one slot leaves that of every other as it was (R242). -/
theorem service_serveSession (cif : List Soft) (s : State) {a b : Fin 64} (hne : a ≠ b) :
    service cif (serveSession cif s a) b = service cif s b := by
  rw [serveSession_eq_service]
  exact service_congr cif rfl (slot_writeSlot_other s a b _ hne)

/-! ### The service of many slots -/

/-- `t` is `s` after the slots in `order` were served: each of them from its content in `s`, and nothing else written
but `EVT` (R241, R242). -/
structure ServedInOrder (cif : List Soft) (order : List (Fin 64)) (s t : State) : Prop where
  slots : ∀ id, slot t id = if id ∈ order then servedSlot cif s id else slot s id
  evt : t.evt = s.evt ++ order.flatMap (servedRecords cif s)
  others : { t with sess := s.sess, evt := s.evt } = s

theorem ServedInOrder.cons {cif : List Soft} {a : Fin 64} {order : List (Fin 64)} {s t : State} (ha : a ∉ order)
    (h : ServedInOrder cif order (serveSession cif s a) t) : ServedInOrder cif (a :: order) s t where
  slots id := by
    rw [h.slots]
    by_cases hid : a = id
    · subst hid
      rw [if_neg ha, if_pos List.mem_cons_self, serveSession_eq_service, slot_raiseAll, slot_writeSlot_self]
    · have hslot : slot (serveSession cif s a) id = slot s id := by
        rw [serveSession_eq_service, slot_raiseAll, slot_writeSlot_other s a id _ hid]
      rw [hslot, servedSlot, service_serveSession cif s hid, ← servedSlot]
      simp [Ne.symm hid]
  evt := by
    have hrest : order.map (servedRecords cif (serveSession cif s a)) = order.map (servedRecords cif s) := by
      refine List.map_congr_left fun b hb => ?_
      have hne : a ≠ b := fun e => ha (e ▸ hb)
      rw [servedRecords, service_serveSession cif s hne, ← servedRecords]
    rw [h.evt, List.flatMap_def, hrest, ← List.flatMap_def, serveSession_eq_service, List.flatMap_cons,
      raiseAll_evt, writeSlot_evt, List.append_assoc]
  others := by
    have hothers := congrArg (fun u : State => { u with sess := s.sess, evt := s.evt }) h.others
    rw [serveSession_eq_service] at hothers
    exact hothers

theorem foldl_servedInOrder (cif : List Soft) {order : List (Fin 64)} (hnodup : order.Nodup) (s : State) :
    ServedInOrder cif order s (order.foldl (serveSession cif) s) := by
  induction order generalizing s with
  | nil => exact ⟨fun _ => by simp, by simp, rfl⟩
  | cons a order ih =>
    obtain ⟨ha, hrest⟩ := List.nodup_cons.mp hnodup
    exact (ih hrest (serveSession cif s a)).cons ha

/-- Of the records of a service in any order, those of `id` are the records of its own service. -/
theorem ofSession_flatMap (cif : List Soft) (s : State) (id : Fin 64) {order : List (Fin 64)} (hnodup : order.Nodup) :
    ofSession id (order.flatMap (servedRecords cif s)) = if id ∈ order then servedRecords cif s id else [] := by
  induction order with
  | nil => rfl
  | cons a order ih =>
    obtain ⟨ha, hrest⟩ := List.nodup_cons.mp hnodup
    rw [List.flatMap_cons, ofSession_append, ih hrest]
    by_cases hid : a = id
    · subst hid
      simp [ofSession_self (servedRecords_sub cif s a), ha]
    · simp [ofSession_other hid (servedRecords_sub cif s a), Ne.symm hid]

theorem ServedInOrder.ofSession_newEvents {cif : List Soft} {order : List (Fin 64)} {s t : State}
    (h : ServedInOrder cif order s t) (hnodup : order.Nodup) (id : Fin 64) :
    ofSession id (newEvents s t) = if id ∈ order then servedRecords cif s id else [] := by
  rw [newEvents_of_append h.evt, ofSession_flatMap cif s id hnodup]

theorem sess_eq_of_slots {s t : State} (h : ∀ id, slot s id = slot t id) : s.sess = t.sess :=
  Vector.ext fun i hi => h ⟨i, hi⟩

/-! ### The order the machine takes -/

theorem insertAt_perm {α : Type} (x : α) (n : Nat) (xs : List α) : (insertAt x n xs).Perm (x :: xs) := by
  fun_induction insertAt x n xs with
  | case1 => exact .refl _
  | case2 => exact .refl _
  | case3 n y ys ih => exact (ih.cons y).trans (.swap x y ys)

/-- Whatever places are drawn, each slot is served once (R241). -/
theorem serveOrder_perm (n : Nat) (ids : List (Fin 64)) : (serveOrder n ids).Perm ids := by
  induction ids with
  | nil => exact .refl _
  | cons id ids ih => exact (insertAt_perm id _ _).trans (ih.cons id)

theorem openIds_nodup (s : State) : (openIds s).Nodup := (List.nodup_finRange 64).filter _

/-- Settles O55: every service depends on its own slot alone, so what an order gives depends on its members only. -/
theorem servingOrderIrrelevant : Obligations.ServingOrderIrrelevant := by
  refine ⟨fun cif s o1 o2 hperm hnodup => ?_, fun n s => ⟨serveOrder_perm n _, openIds_nodup s⟩⟩
  have hnodup2 : o2.Nodup := hperm.nodup_iff.mp hnodup
  have h1 := foldl_servedInOrder cif hnodup s
  have h2 := foldl_servedInOrder cif hnodup2 s
  refine ⟨sess_eq_of_slots fun id => ?_, fun id => ?_, h1.others⟩
  · rw [h1.slots, h2.slots]
    simp only [hperm.mem_iff]
  · rw [h1.ofSession_newEvents hnodup, h2.ofSession_newEvents hnodup2]
    simp only [hperm.mem_iff]

end Sys2Proof.Machine
end

section
/-! The decoder row by row: every opcode has one row, and a row answers its command or *malformed* by the field
constraints of R92, in the order of R93. -/

namespace Sys2Proof

set_option Elab.async false

/-! ### The fields of a word -/

/-- No two words share their three fields (R90). -/
theorem commandWord_inj {op op' a a' : BitVec 8} {imm imm' : BitVec 16} :
    commandWord op a imm = commandWord op' a' imm' ↔ op = op' ∧ a = a' ∧ imm = imm' := by
  constructor
  · intro h
    have hop := congrArg opField h
    have ha := congrArg aField h
    have himm := congrArg immField h
    simp only [opField_commandWord, aField_commandWord, immField_commandWord] at hop ha himm
    exact ⟨hop, ha, himm⟩
  · rintro ⟨rfl, rfl, rfl⟩
    rfl

/-- The constraint of `RESTART` on `imm16[15:1]`, as a bound (R92). -/
theorem restart_high_eq_zero (imm : BitVec 16) : imm.extractLsb' 1 15 = 0#15 ↔ imm.toNat ≤ 1 := by
  have := imm.isLt
  rw [BitVec.toNat_eq, BitVec.extractLsb'_toNat, Nat.shiftRight_eq_div_pow, BitVec.toNat_ofNat]
  omega

/-- An immediate is what `RESTART` writes for its own bit 0 just if it is at most 1 (R112). -/
theorem eq_restart_operand (imm : BitVec 16) : imm = (if imm.getLsbD 0 then 1 else 0) ↔ imm.toNat ≤ 1 := by
  constructor
  · intro h
    rw [h]
    split <;> decide
  · intro h
    obtain h0 | h1 : imm.toNat = 0 ∨ imm.toNat = 1 := by omega
    · obtain rfl : imm = 0 := BitVec.eq_of_toNat_eq h0
      rfl
    · obtain rfl : imm = 1 := BitVec.eq_of_toNat_eq h1
      rfl

/-! ### The rows -/

/-- A field constraint of the row of `op` is violated (R92): an unused field that is not 0, an index past its last
value, or an immediate of `RESTART` above 1. -/
def FieldsViolated (op a imm : Nat) : Prop :=
  ((op = 0x00 ∨ op = 0x02) ∧ (a ≠ 0 ∨ imm ≠ 0)) ∨ (op = 0x01 ∧ (a ≠ 0 ∨ 1 < imm)) ∨
    ((op = 0x03 ∨ op = 0x04) ∧ 7 < a) ∨ (op = 0x05 ∧ (7 < a ∨ imm ≠ 0)) ∨
    ((op = 0x06 ∨ op = 0x07) ∧ imm ≠ 0) ∨ ((op = 0x08 ∨ op = 0x09 ∨ op = 0x0A) ∧ (63 < a ∨ imm ≠ 0))

/-- The row of `op` reads the command `i` from the fields `a` and `imm`; the decoder's test `ok` of the row's
constraints says that the word is the encoding of `i`, and that no constraint of R92 is violated. By default each
of the four is the computation of its function at the row's opcode, which is enough where an operand is a whole
field. -/
structure IsRow (op a : BitVec 8) (imm : BitVec 16) (ok : Bool) (i : Instr) : Prop where
  decoded : decode (commandWord op a imm) = .check ok i := by simp [decode]
  opcode : i.opcode = op := by rfl
  encoded : ok = true ↔ i.WellFormed ∧ commandWord op a imm = encode i := by simp [encode, commandWord_inj]
  violated : ok = false ↔ FieldsViolated op.toNat a.toNat imm.toNat := by
    simp [FieldsViolated, BitVec.toNat_eq, Decidable.imp_iff_not_or]

section
variable (a : BitVec 8) (imm : BitVec 16)

theorem isRow_nop : IsRow 0x00 a imm (a == 0 && imm == 0) .nop := {}

theorem isRow_restart :
    IsRow 0x01 a imm (a == 0 && imm.extractLsb' 1 15 == 0) (.restart (imm.getLsbD 0)) where
  encoded := by
    rw [encode, commandWord_inj, eq_restart_operand, ← restart_high_eq_zero]
    simp
  violated := by
    rw [FieldsViolated, ← Nat.not_le, ← restart_high_eq_zero]
    simp [BitVec.toNat_eq, Decidable.imp_iff_not_or]

theorem isRow_stop : IsRow 0x02 a imm (a == 0 && imm == 0) .stop := {}

theorem isRow_ldpl : IsRow 0x03 a imm (decide (a.toNat ≤ 7)) (.ldpl a imm) := {}

theorem isRow_ldph : IsRow 0x04 a imm (decide (a.toNat ≤ 7)) (.ldph a imm) := {}

theorem isRow_rdp : IsRow 0x05 a imm (decide (a.toNat ≤ 7) && imm == 0) (.rdp a) := {}

theorem isRow_wrcsr : IsRow 0x06 a imm (imm == 0) (.wrcsr a) := {}

theorem isRow_rdcsr : IsRow 0x07 a imm (imm == 0) (.rdcsr a) := {}

theorem isRow_sopen : IsRow 0x08 a imm (decide (a.toNat ≤ 63) && imm == 0) (.sopen a) := {}

theorem isRow_sclose : IsRow 0x09 a imm (decide (a.toNat ≤ 63) && imm == 0) (.sclose a) := {}

theorem isRow_sstat : IsRow 0x0A a imm (decide (a.toNat ≤ 63) && imm == 0) (.sstat a) := {}

end

/-! ### Every opcode of the map has a row, and every command is in one -/

theorem exists_row {op : BitVec 8} (hop : op.toNat ≤ 0x0A) (a : BitVec 8) (imm : BitVec 16) :
    ∃ ok i, IsRow op a imm ok i := by
  obtain ⟨n, hn, rfl⟩ : ∃ n, n ≤ 0x0A ∧ op = BitVec.ofNat 8 n := ⟨op.toNat, hop, by simp⟩
  match n, hn with
  | 0x00, _ => exact ⟨_, _, isRow_nop a imm⟩
  | 0x01, _ => exact ⟨_, _, isRow_restart a imm⟩
  | 0x02, _ => exact ⟨_, _, isRow_stop a imm⟩
  | 0x03, _ => exact ⟨_, _, isRow_ldpl a imm⟩
  | 0x04, _ => exact ⟨_, _, isRow_ldph a imm⟩
  | 0x05, _ => exact ⟨_, _, isRow_rdp a imm⟩
  | 0x06, _ => exact ⟨_, _, isRow_wrcsr a imm⟩
  | 0x07, _ => exact ⟨_, _, isRow_rdcsr a imm⟩
  | 0x08, _ => exact ⟨_, _, isRow_sopen a imm⟩
  | 0x09, _ => exact ⟨_, _, isRow_sclose a imm⟩
  | 0x0A, _ => exact ⟨_, _, isRow_sstat a imm⟩

theorem encode_isRow (i : Instr) : ∃ a imm ok, encode i = commandWord i.opcode a imm ∧ IsRow i.opcode a imm ok i := by
  cases i with
  | nop => exact ⟨0, 0, _, rfl, isRow_nop 0 0⟩
  | restart doScan =>
    cases doScan with
    | false => exact ⟨0, 0, _, rfl, isRow_restart 0 0⟩
    | true => exact ⟨0, 1, _, rfl, isRow_restart 0 1⟩
  | stop => exact ⟨0, 0, _, rfl, isRow_stop 0 0⟩
  | ldpl a imm => exact ⟨a, imm, _, rfl, isRow_ldpl a imm⟩
  | ldph a imm => exact ⟨a, imm, _, rfl, isRow_ldph a imm⟩
  | rdp a => exact ⟨a, 0, _, rfl, isRow_rdp a 0⟩
  | wrcsr a => exact ⟨a, 0, _, rfl, isRow_wrcsr a 0⟩
  | rdcsr a => exact ⟨a, 0, _, rfl, isRow_rdcsr a 0⟩
  | sopen a => exact ⟨a, 0, _, rfl, isRow_sopen a 0⟩
  | sclose a => exact ⟨a, 0, _, rfl, isRow_sclose a 0⟩
  | sstat a => exact ⟨a, 0, _, rfl, isRow_sstat a 0⟩

@[simp] theorem opField_encode (i : Instr) : opField (encode i) = i.opcode := by
  obtain ⟨a, imm, ok, hword, -⟩ := encode_isRow i
  rw [hword, opField_commandWord]

/-- A well-formed command is what its word decodes to (R92). -/
theorem decode_encode {i : Instr} (h : i.WellFormed) : decode (encode i) = .command i := by
  obtain ⟨a, imm, ok, hword, hrow⟩ := encode_isRow i
  rw [hword, hrow.decoded, check_eq_command]
  exact ⟨hrow.encoded.mpr ⟨h, hword.symm⟩, rfl⟩

/-- An opcode past the map is illegal whatever the other fields are (R93). -/
theorem decode_of_opcode_above {w : Word} (h : 0x0A < (opField w).toNat) : decode w = .illegal := by
  unfold decode
  split
  case h_12 => rfl
  all_goals omega

/-- Decoding in the order of R93: past the map, or by the row of the opcode. -/
theorem decode_cases (w : Word) :
    (0x0A < (opField w).toNat ∧ decode w = .illegal) ∨
    ((opField w).toNat ≤ 0x0A ∧ ∃ ok i, IsRow (opField w) (aField w) (immField w) ok i ∧ decode w = .check ok i) := by
  obtain hop | hop := Nat.lt_or_ge 0x0A (opField w).toNat
  · exact .inl ⟨hop, decode_of_opcode_above hop⟩
  · obtain ⟨ok, i, hrow⟩ := exists_row hop (aField w) (immField w)
    have hdecoded := hrow.decoded
    rw [commandWord_fields] at hdecoded
    exact .inr ⟨hop, ok, i, hrow, hdecoded⟩

/-- A word that decodes to a command is that command's word: its row dropped no bit (R92). -/
theorem encode_of_decode {w : Word} {i : Instr} (h : decode w = .command i) : i.WellFormed ∧ encode i = w := by
  obtain ⟨-, hillegal⟩ | ⟨-, ok, j, hrow, hdecoded⟩ := decode_cases w
  · rw [hillegal] at h
    cases h
  · rw [hdecoded, check_eq_command] at h
    obtain ⟨hok, rfl⟩ := h
    obtain ⟨hwf, hword⟩ := hrow.encoded.mp hok
    exact ⟨hwf, hword.symm.trans (commandWord_fields w)⟩

/-! ### The obligations -/

/-- Settles O2: a row's constraints say just that the word is the encoding of the command it reads. -/
theorem decodeEncodeAgree : Obligations.DecodeEncodeAgree := by
  intro w i
  constructor
  · exact encode_of_decode
  · rintro ⟨hwf, rfl⟩
    exact decode_encode hwf

/-- Settles O3: an opcode past the map is illegal, and the row of any other one tests the constraints of R92. -/
theorem decodeThreeOutcomes : Obligations.DecodeThreeOutcomes := by
  intro w op a imm
  change (_ ↔ 0x0A < op) ∧ (_ ↔ op ≤ 0x0A ∧ FieldsViolated op a imm) ∧ _
  obtain ⟨hop, hillegal⟩ | ⟨hop, ok, i, hrow, hdecoded⟩ := decode_cases w
  · rw [hillegal]
    exact ⟨iff_of_true rfl hop, iff_of_false nofun fun h => absurd h.1 (Nat.not_le.mpr hop), fun h => absurd rfl h⟩
  · rw [hdecoded, check_eq_malformed, hrow.violated]
    refine ⟨iff_of_false (check_ne_illegal ok i) (Nat.not_lt.mpr hop), (and_iff_right hop).symm, fun _ hne => ?_⟩
    have hok : ok = true := by simpa [check_eq_malformed] using hne
    exact ⟨i, (check_eq_command ok i i).mpr ⟨hok, rfl⟩, congrArg BitVec.toNat hrow.opcode⟩

/-- Settles O1: each of the eleven commands is well formed and the word is its encoding; the last two words fail
the opcode map and the constraint of their row. -/
theorem decodeWrittenWords : Obligations.DecodeWrittenWords := by
  refine ⟨decode_encode (i := .nop) trivial, decode_encode (i := .restart true) trivial,
    decode_encode (i := .stop) trivial, decode_encode (i := .ldpl 2 0x002D) (by decide),
    decode_encode (i := .ldph 2 0x0008) (by decide), decode_encode (i := .rdp 7) (by decide),
    decode_encode (i := .wrcsr 0x01) trivial, decode_encode (i := .rdcsr 0x0E) trivial,
    decode_encode (i := .sopen 5) (by decide), decode_encode (i := .sclose 63) (by decide),
    decode_encode (i := .sstat 5) (by decide), decode_of_opcode_above (by decide), ?_⟩
  exact (isRow_ldpl 8 1).decoded

end Sys2Proof
end

section
/-! What a command answers: the session status word, and one record of the command's own opcode (R96, R97, R102). -/

namespace Sys2Proof.Machine

set_option Elab.async false

/-! ### `SSTAT` -/

/-- `TDI_READY` (R102). -/
theorem tdiReady_iff (x : Session) : tdiReady x = true ↔ x.desc.tdiEn = false ∨ x.tdiCnt = 16 := by
  simp [tdiReady]

/-- The fields of the session status word do not overlap (R102). -/
theorem sstatWord_fields (x : Session) :
    let v := sstatWord (some x)
    v.getLsbD 0 = true ∧ v.extractLsb' 1 2 = x.desc.type ∧ v.getLsbD 3 = x.mismatch ∧ v.getLsbD 4 = tdiReady x ∧
    v.extractLsb' 5 3 = x.sfFill ∧ v.extractLsb' 8 8 = x.errcode ∧ v.extractLsb' 16 16 = 0 := by
  have htype := x.desc.type.isLt
  have hmismatch := bitNat_le x.mismatch
  have hready := bitNat_le (tdiReady x)
  have hfill := x.sfFill.isLt
  have herr := x.errcode.isLt
  refine ⟨getLsbD_ofNat (by decide) ?_, extractLsb'_ofNat (by decide) ?_, getLsbD_ofNat (by decide) ?_,
    getLsbD_ofNat (by decide) ?_, extractLsb'_ofNat (by decide) ?_, extractLsb'_ofNat (by decide) ?_,
    extractLsb'_ofNat (by decide) ?_⟩
  case refine_1 => change _ = 1; omega
  case refine_7 => change _ = 0; omega
  all_goals omega

theorem exec_sstat {a : BitVec 8} (s : State) {id : Fin 64} (h : slotOperand a = some id) :
    exec (.sstat a) s = .next (respond 0x0A stOk (sstatWord (slot s id)) s) := by
  simp only [exec, execSstat, h]

/-- Settles O19: the response carries the status word, whose fields read back. -/
theorem sstatCompletes : Obligations.SstatCompletes := by
  intro a s h
  have hid : slotOperand a = some ⟨a.toNat, h⟩ := (slotOperand_eq_some a _).mpr rfl
  refine ⟨sstatWord (slot s ⟨a.toNat, h⟩), exec_sstat s hid, fun hclosed => ?_, fun x hopen => ?_⟩
  · rw [hclosed]
    rfl
  · rw [hopen]
    obtain ⟨hbit, htype, hmismatch, hready, hfill, herr, hhigh⟩ := sstatWord_fields x
    exact ⟨hbit, htype, hmismatch, hready ▸ tdiReady_iff x, hfill, herr, hhigh⟩

/-! ### One response per command -/

/-- The outcome is a next state with one more record, of the command's opcode and a status of R97, and an answer
other than `OK` leaves everything else as it was (R96, R310, R311). -/
def AnswersOnce (i : Instr) (s : State) (o : Host.Outcome State Fault Refusal) : Prop :=
  ∃ u st d, o = .next (respond i.opcode st d u) ∧ u.rsp = s.rsp ∧ st.toNat ≤ 8 ∧ (st ≠ stOk → u = s)

section
variable {s : State}

theorem answersOnce_ok (i : Instr) {u : State} (d : Word) (h : u.rsp = s.rsp) :
    AnswersOnce i s (.next (respond i.opcode stOk d u)) :=
  ⟨u, stOk, d, rfl, h, by decide, fun hne => absurd rfl hne⟩

theorem answersOnce_unchanged (i : Instr) {st : BitVec 8} (hst : st.toNat ≤ 8) (d : Word) :
    AnswersOnce i s (.next (respond i.opcode st d s)) :=
  ⟨s, st, d, rfl, rfl, hst, fun _ => rfl⟩

/-- A term with an index out of range answers with its own opcode, which its word carries (log 10). -/
theorem answersOnce_malformed (i : Instr) : AnswersOnce i s (.next (refuseMalformed (encode i) s)) := by
  rw [refuseMalformed, opField_encode]
  exact answersOnce_unchanged i (st := stOperand) (by decide) _

theorem openSlot_answersOnce (a : BitVec 8) (id : Fin 64) : AnswersOnce (.sopen a) s (.next (openSlot id s)) := by
  unfold openSlot
  split
  · exact answersOnce_unchanged (.sopen a) (st := stOkReused) (by decide) _
  · dsimp only
    split
    · exact answersOnce_unchanged (.sopen a) (st := stRange) (by decide) _
    · split
      · exact answersOnce_unchanged (.sopen a) (st := stOverlap) (by decide) _
      · exact answersOnce_ok (.sopen a) _ rfl

theorem exec_answersOnce (i : Instr) (s : State) : AnswersOnce i s (exec i s) := by
  cases i with
  | nop => exact answersOnce_ok .nop _ rfl
  | restart doScan =>
    simp only [exec, execRestart, restart_raises]
    exact answersOnce_ok (.restart doScan) _ rfl
  | stop => exact answersOnce_ok .stop _ rfl
  | ldpl a imm16 =>
    simp only [exec, execLdpl]
    split
    · exact answersOnce_malformed _
    · exact answersOnce_ok (.ldpl a imm16) _ rfl
  | ldph a imm16 =>
    simp only [exec, execLdph]
    split
    · exact answersOnce_malformed _
    · exact answersOnce_ok (.ldph a imm16) _ rfl
  | rdp a =>
    simp only [exec, execRdp]
    split
    · exact answersOnce_malformed _
    · exact answersOnce_ok (.rdp a) _ rfl
  | wrcsr a =>
    simp only [exec, execWrcsr]
    split
    · exact answersOnce_unchanged (.wrcsr a) (st := stNoCsr) (by decide) _
    · split
      · exact answersOnce_unchanged (.wrcsr a) (st := stRo) (by decide) _
      · exact answersOnce_ok (.wrcsr a) _ rfl
  | rdcsr a =>
    simp only [exec, execRdcsr]
    split
    · exact answersOnce_unchanged (.rdcsr a) (st := stNoCsr) (by decide) _
    · exact answersOnce_ok (.rdcsr a) _ rfl
  | sopen a =>
    simp only [exec, execSopen]
    split
    · exact answersOnce_malformed _
    · exact openSlot_answersOnce a _
  | sclose a =>
    simp only [exec, execSclose]
    split
    · exact answersOnce_malformed _
    · split
      · exact answersOnce_unchanged (.sclose a) (st := stNotOpen) (by decide) _
      · exact answersOnce_ok (.sclose a) _ rfl
  | sstat a =>
    simp only [exec, execSstat]
    split
    · exact answersOnce_malformed _
    · exact answersOnce_ok (.sstat a) _ rfl

end

/-- Settles O21: every path of every command ends in one response, and only `OK` comes with another change. -/
theorem everyCommandAnswersOnce : Obligations.EveryCommandAnswersOnce := by
  intro i s
  obtain ⟨u, st, d, hexec, hrsp, hst, hsame⟩ := exec_answersOnce i s
  refine ⟨_, ⟨i.opcode, st, d⟩, hexec, ?_, rfl, hst, fun hne => ?_⟩
  · rw [respond_rsp, hrsp]
  · rw [hsame hne]
    rfl

end Sys2Proof.Machine
end

section
/-! The synchronisation state: one account of every step says whether it leaves the state, moves along a row of the
table of R177, restarts or fails, and which records of codes 0x01 and 0x02 it raises (R148, R164, R177, R178). -/

namespace Sys2Proof.Machine

set_option Elab.async false

/-! ### The steps outside `PIPE` -/

/-- A step that leaves `SYNC_STATE` and the records, keeps the samples waiting and does not set `RUN`. -/
structure Calm (s t : State) : Prop where
  sync : t.sync = s.sync
  evt : t.evt = s.evt
  rb : s.rb <+: t.rb
  run : s.flags.run = false → t.flags.run = false

theorem Calm.of_eq {s t : State} (hsync : t.sync = s.sync) (hevt : t.evt = s.evt) (hrb : t.rb = s.rb)
    (hflags : t.flags = s.flags) : Calm s t where
  sync := hsync
  evt := hevt
  rb := ⟨[], by rw [hrb, List.append_nil]⟩
  run h := by rw [hflags, h]

theorem Calm.of_afterChoice {s t : State} (h : Calm (afterChoice s) t) : Calm s t where
  sync := h.sync.trans (afterChoice_sync s)
  evt := h.evt.trans (afterChoice_evt s)
  rb := afterChoice_rb s ▸ h.rb
  run hrun := h.run (by rw [afterChoice_flags, hrun])

/-- What a `RESTART` does to the synchronisation state (R112). -/
structure Restarted (s t : State) : Prop where
  sync : t.sync = .unsynchronized
  evt : t.evt = s.evt ++ restartRecords s
  rb : t.rb = []
  run : t.flags.run = true

theorem Restarted.of_afterChoice {s t : State} (h : Restarted (afterChoice s) t) : Restarted s t where
  sync := h.sync
  evt := by rw [h.evt]; simp [restartRecords]
  rb := h.rb
  run := h.run

theorem effect_calm {s t : State} {i : Instr} (h : CommandEffect s i t) (hne : ∀ b, i ≠ .restart b) : Calm s t := by
  cases h with
  | restart b => exact absurd rfl (hne b)
  | stop => exact ⟨rfl, rfl, ⟨[], List.append_nil _⟩, fun _ => rfl⟩
  | _ => exact .of_eq rfl rfl rfl rfl

theorem exec_restarted {b : Bool} {s t : State} (h : exec (.restart b) s = .next t) : Restarted s t := by
  cases h
  rw [restart_raises]
  exact ⟨rfl, rfl, rfl, rfl⟩

theorem runWord_restarted {w : Word} {b : Bool} {s t : State} (hdec : decode w = .command (.restart b))
    (h : runWord w s = .next t) : Restarted s t := by
  rw [runWord, hdec] at h
  exact exec_restarted h

theorem exec_calm {i : Instr} {s t : State} (hne : ∀ b, i ≠ .restart b) (h : exec i s = .next t) : Calm s t := by
  obtain ⟨u, op, st, d, hu, rfl⟩ := exec_effect h
  have hcalm := effect_calm hu hne
  exact ⟨hcalm.sync, hcalm.evt, hcalm.rb, hcalm.run⟩

/-- A word that is no `RESTART` leaves the synchronisation state. -/
theorem runWord_calm {w : Word} {s t : State} (hne : ∀ b, decode w ≠ .command (.restart b))
    (h : runWord w s = .next t) : Calm s t := by
  unfold runWord at h
  split at h
  · next i hdec => exact exec_calm (fun b e => hne b (e ▸ hdec)) h
  · cases h; exact .of_eq rfl rfl rfl rfl
  · cases h; exact .of_eq rfl rfl rfl rfl

theorem srcPush_calm (w : Word) (s : State) : Calm s (srcPush w s) := by
  unfold srcPush
  split
  · exact ⟨rfl, rfl, ⟨[w], rfl⟩, id⟩
  · exact .of_eq rfl rfl rfl rfl

theorem srcMiss_calm (m : Nat) (s : State) : Calm s (srcMiss m s) := by
  unfold srcMiss
  split <;> exact .of_eq rfl rfl rfl rfl

/-- A step is calm, a step of `PIPE`, a `RESTART` or a source failure. -/
theorem step_sync_cases {s t : State} (h : step s = .next t) :
    Calm s t ∨ (chosenTurn s = .pipe ∧ t = pipeStep (afterChoice s)) ∨
    ((∃ w rest b, chosenTurn s = .cmd ∧ s.cmdq = w :: rest ∧ decode w = .command (.restart b)) ∧ Restarted s t) ∨
    (chosenTurn s = .fail ∧ s.flags.srcFail = false ∧ t = sourceFailure (afterChoice s)) := by
  rcases step_cases h with ⟨w, rest, hturn, hq, hw⟩ | ⟨-, -, rfl⟩ | ⟨hturn, rfl⟩ | ⟨w, -, rfl⟩ | ⟨m, -, rfl⟩ |
    ⟨hturn, rfl⟩ | ⟨w, -, rfl⟩ | ⟨-, rfl⟩
  · by_cases hdec : ∃ b, decode w = .command (.restart b)
    · obtain ⟨b, hdec⟩ := hdec
      have hres := runWord_restarted hdec hw
      exact .inr (.inr (.inl ⟨⟨w, rest, b, hturn, hq, hdec⟩,
        Restarted.of_afterChoice ⟨hres.sync, hres.evt, hres.rb, hres.run⟩⟩))
    · have hcalm := runWord_calm (not_exists.mp hdec) hw
      exact .inl (Calm.of_afterChoice ⟨hcalm.sync, hcalm.evt, hcalm.rb, hcalm.run⟩)
  · exact .inl (Calm.of_afterChoice (.of_eq rfl rfl rfl rfl))
  · exact .inr (.inl ⟨hturn, rfl⟩)
  · exact .inl (srcPush_calm w _).of_afterChoice
  · exact .inl (srcMiss_calm m _).of_afterChoice
  · unfold srcFailStep
    rw [afterChoice_flags]
    split
    · exact .inl (Calm.of_afterChoice (.of_eq rfl rfl rfl rfl))
    · next hfail => exact .inr (.inr (.inr ⟨hturn, Bool.eq_false_iff.mpr hfail, rfl⟩))
  · exact .inl (Calm.of_afterChoice (.of_eq rfl rfl rfl rfl))
  · exact .inl (Calm.of_afterChoice (.of_eq rfl rfl rfl rfl))

/-! ### The rows of `PIPE` -/

/-- The rows of the table of R177 along which `PIPE` moves, each with its cause. -/
inductive PipeRow (s t : State) : Prop
  | begins (hs : s.sync = .unsynchronized) (ht : t.sync = .acquiringNull)
  | nullEnds (hs : s.sync = .acquiringNull) (ht : t.sync = .acquiringPhaseReference) (w : Word) (rest : List Word)
      (hrb : s.rb = w :: rest) (hends : Machine.nullEnds s.cfg (searchSense s.cfg w s.det) = true)
  | locks (hs : s.sync = .acquiringPhaseReference) (ht : t.sync = .synchronized)
      (hlen : acquireLen s.cfg ≤ s.rb.length) (hgood : qualityOk s.cfg (acquireSpectrum s) = true)
  | misses (hs : s.sync = .acquiringPhaseReference) (ht : t.sync = .acquiringNull)
      (hbad : qualityOk s.cfg (acquireSpectrum s) = false)
  | loses (hs : s.sync = .synchronized) (ht : t.sync = .unsynchronized) (hidx : s.sym.symIdx = 1)
      (hbad : qualityOk s.cfg (trackSpectrum s) = false) (hloss : s.cfg.nLoss ≤ t.cnt.badFrames.toNat)

theorem nullSearch_row {s : State} (hs : s.sync = .acquiringNull) {w : Word} {rest : List Word}
    (hrb : s.rb = w :: rest) :
    (nullSearch w rest s).sync = s.sync ∨ PipeRow s (nullSearch w rest s) := by
  obtain ⟨u, rfl, ⟨hends, g⟩ | ⟨-, v, rfl, ⟨-, g⟩ | ⟨-, g⟩⟩⟩ := nullSearch_cases w rest s <;> rw [g]
  · rw [nullFound_eq]
    exact .inr (.nullEnds hs rfl w rest hrb hends)
  · exact .inl rfl
  · exact .inl rfl

theorem acquire_row {s : State} (hs : s.sync = .acquiringPhaseReference) (hlen : acquireLen s.cfg ≤ s.rb.length) :
    PipeRow s (acquire s) := by
  rcases acquire_cases s with ⟨hgood, g⟩ | ⟨hbad, g⟩ <;> rw [g]
  · rw [acquireOk_eq]
    exact .locks hs rfl hlen hgood
  · rw [acquireFail_eq]
    exact .misses hs rfl hbad

theorem track_row {s : State} (hs : s.sync = .synchronized) (hidx : s.sym.symIdx = 1) :
    (track s).sync = s.sync ∨ PipeRow s (track s) := by
  obtain ⟨hcfg, hsync, -, -⟩ := tracked_head s
  rcases track_cases s with ⟨-, g⟩ | ⟨hbad, g⟩ <;> rw [g]
  · rw [trackOk_eq]
    exact .inl hsync
  · rcases trackFail_cases (trackSpectrum s) (tracked s) with ⟨hloss, e⟩ | ⟨-, e⟩ <;> rw [e]
    · exact .inr (.loses hs rfl hidx hbad (hcfg ▸ hloss))
    · exact .inl hsync

theorem symbolStep_sync (s : State) : (symbolStep s).sync = s.sync := by
  have hdem : (demodulated s).sync = s.sync := by rw [demodulated_eq]; rfl
  rcases symbolStep_cases s with ⟨-, g⟩ | ⟨-, u, es, hu, -, g⟩ <;> rw [g]
  · exact hdem
  · exact hu.sync.trans hdem

theorem symIdx_eq_one {s : State} (h : s.sym.symIdx.toNat = 1) : s.sym.symIdx = 1 := BitVec.eq_of_toNat_eq h

/-- A step of `PIPE` leaves `SYNC_STATE` or moves along a row of the table (R177). -/
theorem pipeStep_row (s : State) :
    (pipeStep s).sync = s.sync ∨ s.flags.run = true ∧ PipeRow s (pipeStep s) := by
  rcases pipeStep_cases s with g | ⟨hrun, hs, g⟩ | ⟨w, rest, hrun, hs, hrb, g⟩ | ⟨hrun, hs, hlen, g⟩ |
    ⟨hrun, hs, hidx, -, g⟩ | ⟨-, -, -, -, -, g⟩ <;> rw [g]
  · exact .inl rfl
  · rw [beginStep_eq]
    exact .inr ⟨hrun, .begins hs rfl⟩
  · exact (nullSearch_row hs hrb).imp_right fun hrow => ⟨hrun, hrow⟩
  · exact .inr ⟨hrun, acquire_row hs hlen⟩
  · exact (track_row hs (symIdx_eq_one hidx)).imp_right fun hrow => ⟨hrun, hrow⟩
  · exact .inl (symbolStep_sync s)

@[simp] theorem acquireSpectrum_afterChoice (s : State) : acquireSpectrum (afterChoice s) = acquireSpectrum s := by
  simp [acquireSpectrum, consumedRot, consumedRaw]

@[simp] theorem trackSpectrum_afterChoice (s : State) : trackSpectrum (afterChoice s) = trackSpectrum s := by
  simp [trackSpectrum, consumedRot, consumedRaw]

theorem PipeRow.of_afterChoice {s t : State} (h : PipeRow (afterChoice s) t) : PipeRow s t := by
  cases h with
  | begins hs ht => exact .begins (by simpa using hs) ht
  | nullEnds hs ht w rest hrb hends =>
    exact .nullEnds (by simpa using hs) ht w rest (by simpa using hrb) (by simpa using hends)
  | locks hs ht hlen hgood => exact .locks (by simpa using hs) ht (by simpa using hlen) (by simpa using hgood)
  | misses hs ht hbad => exact .misses (by simpa using hs) ht (by simpa using hbad)
  | loses hs ht hidx hbad hloss =>
    exact .loses (by simpa using hs) ht (by simpa using hidx) (by simpa using hbad) (by simpa using hloss)

/-- Every change of `SYNC_STATE` is a row of `PIPE`, a `RESTART` or a source failure (R177). -/
theorem step_sync {s t : State} (h : step s = .next t) (hne : t.sync ≠ s.sync) :
    (chosenTurn s = .pipe ∧ s.flags.run = true ∧ PipeRow s t) ∨
    ((∃ w rest b, chosenTurn s = .cmd ∧ s.cmdq = w :: rest ∧ decode w = .command (.restart b)) ∧
      t.sync = .unsynchronized) ∨
    (chosenTurn s = .fail ∧ s.flags.srcFail = false ∧ t.sync = .unsynchronized) := by
  rcases step_sync_cases h with hcalm | ⟨hturn, rfl⟩ | ⟨hcmd, hres⟩ | ⟨hturn, hfail, rfl⟩
  · exact absurd hcalm.sync hne
  · rcases pipeStep_row (afterChoice s) with hsame | ⟨hrun, hrow⟩
    · exact absurd (hsame.trans (afterChoice_sync s)) hne
    · exact .inl ⟨hturn, by rwa [afterChoice_flags] at hrun, hrow.of_afterChoice⟩
  · exact .inr (.inl ⟨hcmd, hres.sync⟩)
  · exact .inr (.inr ⟨hturn, hfail, by rw [sourceFailure_eq]; rfl⟩)

/-- Settles O26: a step is calm, restarts, fails, or is a step of `PIPE` that moves along a row. -/
theorem syncTransitions : Obligations.SyncTransitions := by
  intro s t h hne
  rcases step_sync h hne with ⟨hturn, hrun, hrow⟩ | ⟨⟨w, rest, b, hturn, hq, hdec⟩, ht⟩ | ⟨hturn, hfail, ht⟩
  · refine .inl ⟨hturn, hrun, ?_⟩
    cases hrow with
    | begins hs ht => exact .inl ⟨hs, ht⟩
    | nullEnds hs ht w rest hrb hends => exact .inr (.inl ⟨hs, ht, w, rest, hrb, hends⟩)
    | locks hs ht hlen hgood => exact .inr (.inr (.inl ⟨hs, ht, hgood⟩))
    | misses hs ht hbad => exact .inr (.inr (.inr (.inl ⟨hs, ht, hbad⟩)))
    | loses hs ht hidx hbad hloss => exact .inr (.inr (.inr (.inr ⟨hs, ht, hidx, hbad, hloss⟩)))
  · exact .inr (.inl ⟨hturn, ht, w, rest, b, hq, hdec⟩)
  · exact .inr (.inr ⟨hturn, ht, hfail⟩)

/-! ### The records of synchronisation -/

theorem withCode_of_code {c : BitVec 8} {es : List Event} (h : ∀ e ∈ es, e.code = c) : withCode c es = es :=
  List.filter_eq_self.mpr fun e he => by simpa using h e he

/-- All records of the list have a code of the list. -/
def Coded (cs : List (BitVec 8)) (es : List Event) : Prop := ∀ e ∈ es, e.code ∈ cs

theorem Coded.withCode {cs : List (BitVec 8)} {es : List Event} (h : Coded cs es) {c : BitVec 8} (hc : c ∉ cs) :
    withCode c es = [] := withCode_eq_nil fun e he heq => hc (heq ▸ h e he)

theorem coded_syncRecords (old new : SyncState) : Coded [0x01] (syncRecords old new) := by
  unfold syncRecords
  split <;> simp [Coded, evSyncState]

theorem coded_freqRecords (f : Corrector) : Coded [0x02] (freqRecords f) := by
  unfold freqRecords
  split <;> simp [Coded, evFreqCorr]

theorem coded_presenceRecords (old new : Bool) : Coded [0x04] (presenceRecords old new) := by
  unfold presenceRecords
  split <;> simp [Coded, evPresence]

theorem coded_enabledRecords (b : Bool) (e : Event) : Coded [e.code] (enabledRecords b e) := by
  cases b <;> simp [Coded, enabledRecords]

theorem coded_impulseRecords (s : State) (y : List CInt) : Coded [0x05] (impulseRecords s y) :=
  coded_enabledRecords _ (evImpulse _)

theorem coded_tiiRecords (s : State) (v : List Word) : Coded [0x08] (tiiRecords s v) := by
  unfold tiiRecords
  split
  · split <;> simp [Coded, evTii]
  · simp [Coded]

theorem withSync_syncRecords (old new : SyncState) : withCode 0x01 (syncRecords old new) = syncRecords old new :=
  withCode_of_code fun e he => List.mem_singleton.mp (coded_syncRecords old new e he)

theorem syncRecords_self (v : SyncState) : syncRecords v v = [] := if_pos rfl

/-- The state is about to examine a window that passes the quality test (R172, R174). -/
def PassesQuality (s : State) : Prop :=
  (s.sync = .acquiringPhaseReference ∧ qualityOk s.cfg (acquireSpectrum s) = true) ∨
  (s.sync = .synchronized ∧ s.sym.symIdx = 1 ∧ qualityOk s.cfg (trackSpectrum s) = true)

/-- Records raised while `SYNC_STATE` goes from `old` to `new`: those of the change, once, and `EV_FREQ_CORR` only if
`good` (R148, R178). -/
structure SyncReport (old new : SyncState) (good : Prop) (es : List Event) : Prop where
  sync : withCode 0x01 es = syncRecords old new
  freq : withCode 0x02 es ≠ [] → good

theorem SyncReport.silent (v : SyncState) {good : Prop} {es : List Event} (h1 : withCode 0x01 es = [])
    (h2 : withCode 0x02 es = []) : SyncReport v v good es := ⟨by rw [h1, syncRecords_self], fun h => absurd h2 h⟩

theorem Coded.silent {cs : List (BitVec 8)} {es : List Event} (h : Coded cs es) (h1 : 0x01 ∉ cs) (h2 : 0x02 ∉ cs)
    (v : SyncState) {good : Prop} : SyncReport v v good es := .silent v (h.withCode h1) (h.withCode h2)

theorem DecoderRecords.silent {es : List Event} (h : DecoderRecords es) (v : SyncState) {good : Prop} :
    SyncReport v v good es := by
  have hno (c : BitVec 8) (hc : c.toNat < 9) : Machine.withCode c es = [] :=
    withCode_eq_nil fun e he heq => absurd (heq ▸ h e he) (Nat.not_le_of_lt hc)
  exact .silent v (hno _ (by decide)) (hno _ (by decide))

theorem syncReport_syncRecords (old new : SyncState) {good : Prop} :
    SyncReport old new good (syncRecords old new) where
  sync := withSync_syncRecords old new
  freq h := absurd ((coded_syncRecords old new).withCode (by decide)) h

theorem syncReport_freqRecords (v : SyncState) {good : Prop} (h : good) (f : Corrector) :
    SyncReport v v good (freqRecords f) where
  sync := by rw [syncRecords_self, (coded_freqRecords f).withCode (by decide)]
  freq _ := h

theorem syncReport_presenceRecords (v : SyncState) {good : Prop} (a b : Bool) :
    SyncReport v v good (presenceRecords a b) := (coded_presenceRecords a b).silent (by decide) (by decide) v

theorem syncReport_impulseRecords (v : SyncState) {good : Prop} (s : State) (y : List CInt) :
    SyncReport v v good (impulseRecords s y) := (coded_impulseRecords s y).silent (by decide) (by decide) v

/-- Reports follow one another when the changes they report do. -/
theorem SyncReport.append {a b d : SyncState} {good : Prop} {es fs : List Event} (h : SyncReport a b good es)
    (g : SyncReport b d good fs) (hjoin : syncRecords a b ++ syncRecords b d = syncRecords a d) :
    SyncReport a d good (es ++ fs) where
  sync := by rw [withCode_append, h.sync, g.sync, hjoin]
  freq hne := by
    by_cases hes : withCode 0x02 es = []
    · rw [withCode_append, hes, List.nil_append] at hne
      exact g.freq hne
    · exact h.freq hes

theorem SyncReport.append_right {old new : SyncState} {good : Prop} {es fs : List Event}
    (h : SyncReport old new good es) (g : SyncReport new new good fs) : SyncReport old new good (es ++ fs) :=
  h.append g (by rw [syncRecords_self, List.append_nil])

theorem SyncReport.append_left {old new : SyncState} {good : Prop} {es fs : List Event}
    (h : SyncReport old old good es) (g : SyncReport old new good fs) : SyncReport old new good (es ++ fs) :=
  h.append g (by rw [syncRecords_self, List.nil_append])

theorem syncReport_headRecords (v : SyncState) {good : Prop} (s : State) (w : List Word) :
    SyncReport v v good (headRecords s w) :=
  (SyncReport.append_right (.silent v rfl rfl)
    ((coded_enabledRecords _ (evNullvec w)).silent (by simp [evNullvec]) (by simp [evNullvec]) v)).append_right
    ((coded_tiiRecords s w).silent (by decide) (by decide) v)

/-- The step's records report its change of `SYNC_STATE`, and `EV_FREQ_CORR` only if `good`. -/
def ReportsSync (good : Prop) (s t : State) : Prop := ∃ es, t.evt = s.evt ++ es ∧ SyncReport s.sync t.sync good es

theorem reportsSync_raising {good : Prop} {s t : State} {es : List Event} (hevt : t.evt = s.evt)
    (hes : SyncReport s.sync t.sync good es) : ReportsSync good s (raiseAll es t) :=
  ⟨es, by rw [raiseAll_evt, hevt], hes⟩

theorem reportsSync_nothing {good : Prop} {s t : State} (hsync : t.sync = s.sync) (hevt : t.evt = s.evt) :
    ReportsSync good s t := ⟨[], by rw [hevt, List.append_nil], by rw [hsync]; exact .silent _ rfl rfl⟩

theorem restartRecords_report {good : Prop} (s : State) :
    SyncReport s.sync .unsynchronized good (restartRecords s) :=
  (syncReport_syncRecords ..).append_right (syncReport_presenceRecords ..)

theorem nullSearch_reports {good : Prop} (w : Word) (rest : List Word) (s : State) :
    ReportsSync good s (nullSearch w rest s) := by
  obtain ⟨u, rfl, ⟨-, g⟩ | ⟨-, v, rfl, ⟨-, g⟩ | ⟨-, g⟩⟩⟩ := nullSearch_cases w rest s <;> rw [g]
  · rw [nullFound_eq]
    exact reportsSync_raising rfl ((syncReport_syncRecords ..).append_right (syncReport_presenceRecords ..))
  · exact reportsSync_raising (es := [evPresence false]) rfl (.silent _ rfl rfl)
  · exact reportsSync_nothing rfl rfl

theorem acquire_reports {s : State} (hs : s.sync = .acquiringPhaseReference) :
    ReportsSync (PassesQuality s) s (acquire s) := by
  rcases acquire_cases s with ⟨hgood, g⟩ | ⟨-, g⟩ <;> rw [g]
  · rw [acquireOk_eq]
    have hchange : SyncReport s.sync .synchronized (PassesQuality s) _ :=
      (syncReport_syncRecords ..).append_right (syncReport_presenceRecords _ s.flags.presence true)
    exact reportsSync_raising rfl ((hchange.append_right (syncReport_freqRecords _ (.inl ⟨hs, hgood⟩) _)).append_right
      (syncReport_impulseRecords ..))
  · rw [acquireFail_eq]
    exact reportsSync_raising rfl ((syncReport_syncRecords ..).append_right (syncReport_presenceRecords ..))

theorem track_reports {s : State} (hs : s.sync = .synchronized) (hidx : s.sym.symIdx = 1) :
    ReportsSync (PassesQuality s) s (track s) := by
  obtain ⟨-, hsync, -, -⟩ := tracked_head s
  have hevt : (tracked s).evt = s.evt ++ headRecords (sampled (trackLen s.cfg) s)
      (nullVector s.cfg (consumedRaw (trackLen s.cfg) s)) := by simp [tracked_eq, sampled]
  suffices hdecided : ReportsSync (PassesQuality s) (tracked s) (track s) by
    obtain ⟨es, hes, hrep⟩ := hdecided
    rw [hsync] at hrep
    exact ⟨_, by rw [hes, hevt, List.append_assoc], (syncReport_headRecords ..).append_left hrep⟩
  rcases track_cases s with ⟨hgood, g⟩ | ⟨-, g⟩ <;> rw [g]
  · rw [trackOk_eq]
    exact reportsSync_raising rfl ((syncReport_freqRecords _ (.inr ⟨hs, hidx, hgood⟩) _).append_right
      (syncReport_impulseRecords ..))
  · rcases trackFail_cases (trackSpectrum s) (tracked s) with ⟨-, e⟩ | ⟨-, e⟩ <;> rw [e]
    · exact reportsSync_raising rfl (syncReport_syncRecords ..)
    · exact reportsSync_raising rfl (syncReport_impulseRecords ..)

theorem symbolStep_reports {good : Prop} (s : State) : ReportsSync good s (symbolStep s) := by
  have hdem : (demodulated s).evt = s.evt := by simp [demodulated_eq]
  have hsync := symbolStep_sync s
  rcases symbolStep_cases s with ⟨-, g⟩ | ⟨-, u, es, hu, hes, g⟩ <;> rw [g] at hsync ⊢
  · exact reportsSync_nothing hsync hdem
  · obtain ⟨fs, hfs, hcode⟩ := hu.records
    refine ⟨fs ++ es, by rw [raiseAll_evt, frameClose_evt, hfs, hdem, List.append_assoc], ?_⟩
    rw [hsync, hes]
    exact (hcode.silent _).append_right
      ((coded_enabledRecords _ (evConst _)).silent (by simp [evConst]) (by simp [evConst]) _)

theorem pipeStep_reports (s : State) : ReportsSync (PassesQuality s) s (pipeStep s) := by
  rcases pipeStep_cases s with g | ⟨-, -, g⟩ | ⟨w, rest, -, -, -, g⟩ | ⟨-, hs, -, g⟩ | ⟨-, hs, hidx, -, g⟩ |
    ⟨-, -, -, -, -, g⟩ <;> rw [g]
  · exact reportsSync_nothing rfl rfl
  · rw [beginStep_eq]
    exact reportsSync_raising rfl (syncReport_syncRecords ..)
  · exact nullSearch_reports w rest s
  · exact acquire_reports hs
  · exact track_reports hs (symIdx_eq_one hidx)
  · exact symbolStep_reports s

theorem sourceFailure_reports {good : Prop} (s : State) : ReportsSync good s (sourceFailure s) := by
  rw [sourceFailure_eq]
  exact reportsSync_raising rfl (((SyncReport.silent _ rfl rfl).append_left (syncReport_syncRecords ..)).append_right
    (syncReport_presenceRecords ..))

theorem reportsSync_afterChoice {good : Prop} {s t : State} :
    ReportsSync good (afterChoice s) t ↔ ReportsSync good s t := by
  simp only [ReportsSync, afterChoice_evt, afterChoice_sync]

theorem passesQuality_afterChoice (s : State) : PassesQuality (afterChoice s) ↔ PassesQuality s := by
  simp [PassesQuality]

/-- Every step reports its change of `SYNC_STATE`; only `PIPE`'s turn on a window that passes the quality test raises
`EV_FREQ_CORR`. -/
theorem step_reports {s t : State} (h : step s = .next t) :
    ReportsSync (chosenTurn s = .pipe ∧ PassesQuality s) s t := by
  rcases step_sync_cases h with hcalm | ⟨hturn, rfl⟩ | ⟨-, hres⟩ | ⟨-, -, rfl⟩
  · exact reportsSync_nothing hcalm.sync hcalm.evt
  · obtain ⟨es, hes, hrep⟩ := reportsSync_afterChoice.mp (pipeStep_reports (afterChoice s))
    exact ⟨es, hes, hrep.sync, fun hne => ⟨hturn, (passesQuality_afterChoice s).mp (hrep.freq hne)⟩⟩
  · exact ⟨_, hres.evt, by rw [hres.sync]; exact restartRecords_report s⟩
  · exact reportsSync_afterChoice.mp (sourceFailure_reports _)

/-- Settles O27: the one row into `Synchronized` and the two good branches are those of the quality test. -/
theorem onlyQualitySynchronizes : Obligations.OnlyQualitySynchronizes := by
  intro s t h
  refine ⟨fun hs ht => ?_, fun hfreq => ?_⟩
  · rcases step_sync h (fun e => hs (e ▸ ht)) with ⟨hturn, -, hrow⟩ | ⟨-, hout⟩ | ⟨-, -, hout⟩
    · cases hrow with
      | locks hacq _ hlen hgood => exact ⟨hturn, hacq, hlen, hgood⟩
      | begins _ hout => rw [ht] at hout; cases hout
      | nullEnds _ hout => rw [ht] at hout; cases hout
      | misses _ hout => rw [ht] at hout; cases hout
      | loses _ hout => rw [ht] at hout; cases hout
    · rw [ht] at hout; cases hout
    · rw [ht] at hout; cases hout
  · obtain ⟨es, hes, hrep⟩ := step_reports h
    rw [newEvents_of_append hes] at hfreq
    exact hrep.freq hfreq

/-- Settles O28: the records with code 0x01 of a step are those of its change. -/
theorem syncEventOnChange : Obligations.SyncEventOnChange := by
  intro s t h
  obtain ⟨es, hes, hrep⟩ := step_reports h
  rw [newEvents_of_append hes, hrep.sync, syncRecords]
  simp only [eq_comm (a := s.sync)]
  rfl

/-! ### The hold while `RUN = 0` -/

/-- The step that serves a `RESTART` restarts (R112). -/
theorem step_restarted {s t : State} (h : step s = .next t) (hturn : chosenTurn s = .cmd) {w : Word} {rest : List Word}
    (hq : s.cmdq = w :: rest) {b : Bool} (hdec : decode w = .command (.restart b)) : t.flags.run = true := by
  rw [step, hturn, takeTurn, cmdStep, afterChoice_cmdq, hq] at h
  exact (runWord_restarted hdec h).run

/-- Settles O49: without `RUN` a step of `PIPE` holds, and of the other steps only `RESTART` is not calm. -/
theorem startOnlyByRestart : Obligations.StartOnlyByRestart := by
  intro s t hrun h
  have hhold (u : State) (hu : u.flags.run = false) : pipeStep u = u := by simp [pipeStep, hu]
  refine ⟨hhold s hrun, ?_, fun w rest b hturn hq hdec => step_restarted h hturn hq hdec⟩
  rcases step_sync_cases h with hcalm | ⟨-, rfl⟩ | ⟨⟨w, rest, b, hturn, hq, hdec⟩, hres⟩ | ⟨-, -, rfl⟩
  · exact .inl ⟨hcalm.run hrun, hcalm.rb⟩
  · have hrun' : (afterChoice s).flags.run = false := by rw [afterChoice_flags, hrun]
    rw [hhold _ hrun']
    exact .inl ⟨hrun', [], by rw [List.append_nil, afterChoice_rb]⟩
  · exact .inr ⟨hres.run, hres.rb, hturn, w, rest, b, hq, hdec⟩
  · rw [sourceFailure_eq]
    exact .inl ⟨rfl, by simp⟩

end Sys2Proof.Machine
end

section
/-! The search on silence: a zero sample leaves an empty window and an empty level, so no dip begins and only the
timeout is announced (R145, R147, R148). -/

namespace Sys2Proof.Machine

set_option Elab.async false

/-- The detector has seen only silence and no dip has begun (R148 a). -/
structure Detector.Quiet (d : Detector) : Prop where
  seeking : d.nullPhase = .seekDip
  window : ∀ e ∈ d.win, e = 0
  sum : d.wsum = 0
  level : d.slevel = 0

theorem silent_iff (s : State) :
    s.Silent ↔ s.flags.run = true ∧ s.sync = .acquiringNull ∧ s.det.Quiet ∧ ∀ w ∈ s.rb, w = 0 :=
  ⟨fun ⟨hrun, hs, hseek, hwin, hsum, hlevel, hrb⟩ => ⟨hrun, hs, ⟨hseek, hwin, hsum, hlevel⟩, hrb⟩,
    fun ⟨hrun, hs, ⟨hseek, hwin, hsum, hlevel⟩, hrb⟩ => ⟨hrun, hs, hseek, hwin, hsum, hlevel, hrb⟩⟩

theorem energy_zero : energy 0#32 = 0 := by decide

/-- A zero sample is one more silent one (R141, R142, R145). -/
theorem Detector.Quiet.searchSense {d : Detector} (h : d.Quiet) (c : Cfg) : (searchSense c 0 d).Quiet where
  seeking := h.seeking
  window e he := by
    rcases List.mem_or_eq_of_mem_set he with hmem | rfl
    · exact h.window e hmem
    · exact energy_zero
  sum := by simp [Machine.searchSense, sense, h.sum, energy_zero]
  level := by simp [Machine.searchSense, sense, h.level, energy_zero]

theorem Detector.Quiet.searchReset {d : Detector} (h : d.Quiet) : (searchReset d).Quiet :=
  ⟨rfl, h.window, h.sum, h.level⟩

theorem Detector.Quiet.nullEnds {d : Detector} (h : d.Quiet) (c : Cfg) : nullEnds c d = false := by
  simp [Machine.nullEnds, h.seeking]

/-- Nothing is below an empty level (R144). -/
theorem Detector.Quiet.dip {d : Detector} (h : d.Quiet) (c : Cfg) : dip c d = false := by
  simp [Machine.dip, h.level]

theorem Detector.Quiet.dipUpdate {d : Detector} (h : d.Quiet) (c : Cfg) : dipUpdate c d = d := by
  simp [Machine.dipUpdate, h.seeking, h.dip]

/-- A null-search step on a zero sample in silence times out at the limit and counts below it (R145, R147). -/
theorem nullSearch_quiet {s : State} (h : s.det.Quiet) (rest : List Word) :
    nullSearch 0 rest s =
      if s.cfg.nullTimeout ≤ (s.det.nsCount + 1).toNat then
        searchTimeout { s with rb := rest, det := searchSense s.cfg 0 s.det }
      else { s with rb := rest, det := searchSense s.cfg 0 s.det } := by
  have hq := h.searchSense s.cfg
  simp only [nullSearch, hq.nullEnds, hq.dipUpdate, Bool.false_eq_true, if_false, searchSense_nsCount]

/-- Settles O30: a silent search with a sample waiting counts it or times out, and is silent again. -/
theorem silentSearch : Obligations.SilentSearch := by
  intro s hsilent
  obtain ⟨hrun, hs, hdet, hzero⟩ := (silent_iff s).mp hsilent
  cases hrb : s.rb with
  | nil =>
    have hhold : pipeStep s = s := by simp [pipeStep, pipeRun, hrun, hs, hrb]
    rw [hhold]
    exact ⟨hsilent, hrb, by simp [newEvents], by simp⟩
  | cons w rest =>
    rw [hrb] at hzero
    obtain ⟨rfl, hrest⟩ := List.forall_mem_cons.mp hzero
    have hstep : pipeStep s = nullSearch 0 rest s := by simp [pipeStep, pipeRun, hrun, hs, hrb]
    have hq := hdet.searchSense s.cfg
    have hwaits : (0 : Word) :: rest ≠ [] := List.cons_ne_nil _ _
    rw [hstep, nullSearch_quiet hdet, if_neg hwaits]
    by_cases hlimit : s.cfg.nullTimeout ≤ (s.det.nsCount + 1).toNat
    · rw [if_pos hlimit, if_pos ⟨hwaits, hlimit⟩, if_pos hlimit]
      exact ⟨(silent_iff _).mpr ⟨hrun, hs, hq.searchReset, hrest⟩, rfl,
        newEvents_of_append (es := [evPresence false]) rfl, rfl⟩
    · rw [if_neg hlimit, if_neg fun hboth => hlimit hboth.2, if_neg hlimit]
      exact ⟨(silent_iff _).mpr ⟨hrun, hs, hq, hrest⟩, rfl, newEvents_of_append (List.append_nil _).symm, rfl⟩

end Sys2Proof.Machine
end

section
/-! The correlator: the scan for the largest correlation, the sums of complex integers, and the correlation of an ideal
reference (R153 to R156). -/

namespace Sys2Proof.Machine

set_option Elab.async false

/-! ### The largest correlation -/

/-- `b` is the first largest pair of `l`: no second part is larger, and those of smaller first parts are smaller. -/
structure IsFirstMax (l : List (Int × Int)) (b : Int × Int) : Prop where
  mem : b ∈ l
  largest : ∀ p ∈ l, p.2 ≤ b.2
  first : ∀ p ∈ l, p.1 < b.1 → p.2 < b.2

/-- The scan of pairs with rising first parts keeps the first largest one (R155). -/
theorem foldl_isFirstMax (x : Int × Int) (xs : List (Int × Int)) (h : (x :: xs).Pairwise fun p q => p.1 < q.1) :
    IsFirstMax (x :: xs) (xs.foldl (fun best p => if best.2 < p.2 then p else best) x) := by
  induction xs generalizing x with
  | nil => exact ⟨by simp, by simp, by simp⟩
  | cons y ys ih =>
    rw [List.foldl_cons]
    obtain ⟨hx, hys⟩ := List.pairwise_cons.mp h
    obtain ⟨hy, htail⟩ := List.pairwise_cons.mp hys
    have hxy := hx y List.mem_cons_self
    by_cases hlt : x.2 < y.2
    · rw [if_pos hlt]
      obtain ⟨hmem, hlargest, hfirst⟩ := ih y hys
      have hle := hlargest y List.mem_cons_self
      refine ⟨List.mem_cons_of_mem _ hmem, List.forall_mem_cons.mpr ⟨by omega, hlargest⟩,
        List.forall_mem_cons.mpr ⟨fun _ => by omega, hfirst⟩⟩
    · rw [if_neg hlt]
      obtain ⟨hmem, hlargest, hfirst⟩ := ih x
        (List.pairwise_cons.mpr ⟨fun q hq => hx q (List.mem_cons_of_mem _ hq), htail⟩)
      have hle := hlargest x List.mem_cons_self
      have hwin := hfirst x List.mem_cons_self
      obtain ⟨-, hlargest⟩ := List.forall_mem_cons.mp hlargest
      obtain ⟨-, hfirst⟩ := List.forall_mem_cons.mp hfirst
      refine ⟨?_, List.forall_mem_cons.mpr ⟨hle, List.forall_mem_cons.mpr ⟨by omega, hlargest⟩⟩,
        List.forall_mem_cons.mpr ⟨hwin, List.forall_mem_cons.mpr ⟨fun hlow => ?_, hfirst⟩⟩⟩
      · rcases List.mem_cons.mp hmem with heq | hin
        · rw [heq]; exact List.mem_cons_self
        · exact List.mem_cons_of_mem _ (List.mem_cons_of_mem _ hin)
      · have := hwin (by omega)
        omega

theorem mem_shifts (c : Cfg) (s : Int) : s ∈ shifts c ↔ -(c.sMax : Int) ≤ s ∧ s ≤ c.sMax := by
  simp only [shifts, List.mem_map, List.mem_range]
  constructor
  · rintro ⟨j, hj, rfl⟩
    omega
  · rintro ⟨hlow, hhigh⟩
    exact ⟨(s + c.sMax).toNat, by omega, by omega⟩

theorem shifts_pairwise (c : Cfg) : (shifts c).Pairwise (· < ·) := by
  rw [shifts, List.pairwise_map]
  exact List.pairwise_lt_range.imp fun h => by omega

theorem peaks_pairwise (c : Cfg) (y : List CInt) : (peaks c y).Pairwise fun p q => p.1 < q.1 := by
  rw [peaks, List.pairwise_map]
  exact shifts_pairwise c

theorem mem_peaks {c : Cfg} {y : List CInt} {p : Int × Int} :
    p ∈ peaks c y ↔ p.1 ∈ shifts c ∧ p.2 = (correlation c y p.1).norm2 := by
  rw [peaks, List.mem_map]
  exact ⟨fun ⟨s, hs, hp⟩ => hp ▸ ⟨hs, rfl⟩, fun ⟨hs, hm⟩ => ⟨p.1, hs, Prod.ext rfl hm.symm⟩⟩

/-- `firstMax` takes the first largest pair of any list of pairs with rising first parts (R155). -/
theorem firstMax_isFirstMax {l : List (Int × Int)} (hne : l ≠ []) (h : l.Pairwise fun p q => p.1 < q.1) :
    IsFirstMax l (firstMax l) := by
  cases l with
  | nil => exact absurd rfl hne
  | cons x xs => exact foldl_isFirstMax x xs h

theorem peaks_firstMax (c : Cfg) (y : List CInt) : IsFirstMax (peaks c y) (firstMax (peaks c y)) :=
  firstMax_isFirstMax (List.ne_nil_of_mem (mem_peaks (p := (0, (correlation c y 0).norm2)).mpr
    ⟨(mem_shifts c 0).mpr (by omega), rfl⟩)) (peaks_pairwise c y)

theorem shat_mem_shifts (c : Cfg) (y : List CInt) : shat c y ∈ shifts c :=
  (mem_peaks.mp (peaks_firstMax c y).mem).1

theorem firstMax_peaks_snd (c : Cfg) (y : List CInt) :
    (firstMax (peaks c y)).2 = (correlation c y (shat c y)).norm2 := (mem_peaks.mp (peaks_firstMax c y).mem).2

/-- Settles O37: the scan in rising order replaces its candidate only by a larger one. -/
theorem argmaxSmallestShift : Obligations.ArgmaxSmallestShift := by
  intro c y M
  obtain ⟨-, hlargest, hfirst⟩ := peaks_firstMax c y
  obtain ⟨hlow, hhigh⟩ := (mem_shifts c _).mp (shat_mem_shifts c y)
  refine ⟨hhigh, hlow, fun s hs1 hs2 => ?_⟩
  have hmem : (s, M s) ∈ peaks c y := mem_peaks.mpr ⟨(mem_shifts c s).mpr ⟨hs1, hs2⟩, rfl⟩
  have hpeak : (firstMax (peaks c y)).2 = M (shat c y) := firstMax_peaks_snd c y
  rw [← hpeak]
  exact ⟨hlargest _ hmem, hfirst _ hmem⟩

/-! ### Sums of complex integers -/

theorem foldl_add_map_const {α : Type} (xs : List α) (z a : CInt) :
    (xs.map fun _ => z).foldl CInt.add a = ⟨a.re + xs.length * z.re, a.im + xs.length * z.im⟩ := by
  induction xs generalizing a with
  | nil => simp
  | cons x xs ih =>
    rw [List.map_cons, List.foldl_cons, ih]
    simp only [CInt.add, List.length_cons, Int.natCast_add, Int.natCast_one, Int.add_mul, Int.one_mul, CInt.mk.injEq]
    omega

/-- A sum of equal terms. -/
theorem csum_map_const {α : Type} (xs : List α) (z : CInt) :
    csum (xs.map fun _ => z) = ⟨xs.length * z.re, xs.length * z.im⟩ := by
  rw [csum, foldl_add_map_const]
  simp only [CInt.zero, Int.zero_add]

/-! ### The zero spectrum -/

theorem binAt_of_zero {y : List CInt} (h : ∀ z ∈ y, z = ⟨0, 0⟩) (c : Cfg) (k : Int) : binAt c y k = ⟨0, 0⟩ := by
  rw [binAt, List.getD_eq_getElem?_getD]
  cases hz : y[bin c k]? with
  | none => rfl
  | some z => exact h z (List.mem_of_getElem? hz)

theorem correlation_of_zero {y : List CInt} (h : ∀ z ∈ y, z = ⟨0, 0⟩) (c : Cfg) (s : Int) :
    correlation c y s = ⟨0, 0⟩ := by
  have hterm (k : Int) : ((binAt c y (k + 1 + s)).mulConj (binAt c y (k + s))).mul (jpow (-(dq c k))) = ⟨0, 0⟩ := by
    simp [binAt_of_zero h, CInt.mulConj, CInt.mul, CInt.conj]
  simp only [correlation, hterm, csum_map_const, Int.mul_zero]

/-- Settles O38: with all correlations equal the smallest shift is chosen, and its correlation is not positive. -/
theorem zeroSpectrumFails : Obligations.ZeroSpectrumFails := by
  intro c y h
  have hzero := correlation_of_zero h c
  have hnorm (s : Int) : (correlation c y s).norm2 = 0 := by rw [hzero]; rfl
  refine ⟨hzero, ?_, ?_⟩
  · obtain ⟨-, hlow, hall⟩ := argmaxSmallestShift c y
    have hstrict := (hall (-(c.sMax : Int)) (Int.le_refl _) (by omega)).2
    dsimp only at hstrict
    rw [hnorm, hnorm] at hstrict
    have := mt hstrict (Int.lt_irrefl 0)
    omega
  · simp [qualityOk, firstMax_peaks_snd, hnorm]

/-! ### The ideal reference -/

/-- Neighbouring carriers of the reference differ by the quarter turns that the correlator takes back (R153, R154). -/
theorem quarter_turns_cancel (A : Int) (p q : BitVec 2) :
    ((CInt.mul ⟨A, 0⟩ (jpow p)).mulConj (CInt.mul ⟨A, 0⟩ (jpow q))).mul (jpow (-(p - q))) = ⟨A ^ 2, 0⟩ := by
  have hturn : ((jpow p).mulConj (jpow q)).mul (jpow (-(p - q))) = ⟨1, 0⟩ := by revert p q; decide
  generalize jpow p = u, jpow q = v, jpow (-(p - q)) = w at hturn ⊢
  simp only [CInt.mulConj, CInt.mul, CInt.conj, CInt.mk.injEq] at hturn ⊢
  obtain ⟨hre, him⟩ := hturn
  constructor
  · grind
  · grind

theorem mem_carrierList {n : Nat} (heven : n % 2 = 0) (k : Int) :
    k ∈ carrierList n ↔ -((n / 2 : Nat) : Int) ≤ k ∧ k ≤ (n / 2 : Nat) ∧ k ≠ 0 := by
  simp only [carrierList, List.mem_map, List.mem_range]
  constructor
  · rintro ⟨j, hj, rfl⟩
    split <;> omega
  · rintro ⟨hlow, hhigh, hne⟩
    by_cases hneg : k < 0
    · exact ⟨(k + (n / 2 : Nat)).toNat, by omega, by rw [if_pos (by omega)]; omega⟩
    · exact ⟨(k + (n / 2 : Nat) - 1).toNat, by omega, by rw [if_neg (by omega)]; omega⟩

/-- The shifted indices of the carriers, before the pairs across the centre are left out. -/
def lowerCarriers (c : Cfg) : List Int :=
  (List.range c.carriers).map fun j : Nat => (j : Int) - ((c.carriers / 2 : Nat) : Int)

theorem lowerCarriers_nodup (c : Cfg) : (lowerCarriers c).Nodup := by
  rw [lowerCarriers, List.Nodup, List.pairwise_map]
  exact List.pairwise_lt_range.imp fun h => by omega

theorem mem_lowerCarriers {c : Cfg} (heven : c.carriers % 2 = 0) (k : Int) :
    k ∈ lowerCarriers c ↔ -((c.carriers / 2 : Nat) : Int) ≤ k ∧ k < (c.carriers / 2 : Nat) := by
  simp only [lowerCarriers, List.mem_map, List.mem_range]
  exact ⟨fun ⟨j, hj, hk⟩ => by omega, fun ⟨hlow, hhigh⟩ => ⟨(k + (c.carriers / 2 : Nat)).toNat, by omega, by omega⟩⟩

/-- `PAIRS` is what is left without `-1` and `0` (R153). -/
theorem pairSet_eq_erase (c : Cfg) : pairSet c = ((lowerCarriers c).erase 0).erase (-1) := by
  have hnodup := lowerCarriers_nodup c
  rw [(hnodup.erase 0).erase_eq_filter, hnodup.erase_eq_filter, List.filter_filter]
  rfl

theorem pairSet_length {c : Cfg} (heven : c.carriers % 2 = 0) (htwo : 2 ≤ c.carriers) :
    (pairSet c).length = c.carriers - 2 := by
  have hzero : (0 : Int) ∈ lowerCarriers c := (mem_lowerCarriers heven 0).mpr (by omega)
  have hone : (-1 : Int) ∈ (lowerCarriers c).erase 0 :=
    (List.mem_erase_of_ne (by decide)).mpr ((mem_lowerCarriers heven (-1)).mpr (by omega))
  rw [pairSet_eq_erase, List.length_erase_of_mem hone, List.length_erase_of_mem hzero]
  simp [lowerCarriers, Nat.sub_sub]

/-- Both carriers of a pair are carriers (R153). -/
theorem carriers_of_pair {c : Cfg} (heven : c.carriers % 2 = 0) {k : Int} (hk : k ∈ pairSet c) :
    k ∈ carrierList c.carriers ∧ k + 1 ∈ carrierList c.carriers := by
  obtain ⟨hmem, hne⟩ := List.mem_filter.mp hk
  obtain ⟨hlow, hhigh⟩ := (mem_lowerCarriers heven k).mp hmem
  obtain ⟨hone, hzero⟩ : k ≠ -1 ∧ k ≠ 0 := by simpa using hne
  rw [mem_carrierList heven, mem_carrierList heven]
  omega

/-- Settles O39: every pair contributes `A^2`. -/
theorem idealReferencePeak : Obligations.IdealReferencePeak := by
  intro c y A s0 heven htwo hideal
  have hterm : ∀ k ∈ pairSet c,
      ((binAt c y (k + 1 + s0)).mulConj (binAt c y (k + s0))).mul (jpow (-(dq c k))) = ⟨A ^ 2, 0⟩ := by
    intro k hk
    obtain ⟨hlower, hupper⟩ := carriers_of_pair heven hk
    rw [hideal k hlower, hideal (k + 1) hupper, dq, quarter_turns_cancel]
  have hlen : ((pairSet c).length : Int) = c.carriers - 2 := by
    rw [pairSet_length heven htwo]
    omega
  rw [correlation, List.map_congr_left hterm, csum_map_const, hlen]
  simp only [Int.mul_zero]

end Sys2Proof.Machine
end

section
/-! The frequency estimator and the rotator: the increment as an equation in 32-bit words, the carry, the loop, the
report and the running phase (R151, R158 to R164, R184). -/

namespace Sys2Proof.Machine

set_option Elab.async false

/-! ### The increment -/

/-- `DPHI` in the arithmetic of 32-bit words (R184). -/
theorem dphi_eq (c : Cfg) (f : Corrector) :
    dphi c f = (f.coarse * 65536#32 + f.fine) * BitVec.ofNat 32 (2 ^ (16 - c.log2Tu)) := by
  simp only [dphi, BitVec.ofInt_mul, BitVec.ofInt_add, BitVec.ofInt_toInt, BitVec.ofInt_natCast]
  rfl

/-! ### The carry -/

/-- `FINE` in range is left alone (R163). -/
theorem carry_inside (coarse : Word) {fine : Int} (hlow : -32768 ≤ fine) (hhigh : fine ≤ 32768) :
    carry coarse fine = (coarse, fine) := by
  simp only [carry, if_neg (Int.not_lt.mpr hhigh), if_neg (Int.not_lt.mpr hlow)]

theorem carry_above (coarse : Word) {fine : Int} (h : 32768 < fine) :
    carry coarse fine = (coarse + 1, fine - 65536) := by
  simp only [carry, if_pos h]
  exact if_neg (by omega)

theorem carry_below (coarse : Word) {fine : Int} (h : fine < -32768) :
    carry coarse fine = (coarse - 1, fine + 65536) := by
  simp only [carry, if_neg (show ¬ 32768 < fine by omega), if_pos h]

/-- The carry keeps the total, `COARSE` counted from its value before (R163). -/
theorem carry_total (coarse : Word) (fine : Int) :
    ((carry coarse fine).1 - coarse).toInt * 65536 + (carry coarse fine).2 = fine := by
  have hup : (coarse + 1 - coarse : Word) = 1 := by grind
  have hdown : (coarse - 1 - coarse : Word) = -1 := by grind
  have hself : (coarse - coarse : Word) = 0 := by grind
  by_cases hover : 32768 < fine
  · rw [carry_above coarse hover, hup, show (1 : Word).toInt = 1 by decide]
    omega
  · by_cases hunder : fine < -32768
    · rw [carry_below coarse hunder, hdown, show (-1 : Word).toInt = -1 by decide]
      omega
    · rw [carry_inside coarse (by omega) (by omega), hself, show (0 : Word).toInt = 0 by decide]
      omega

/-- The carry keeps the word from which the increment is made (R163, R184). -/
theorem carry_word (coarse : Word) (fine : Int) :
    (carry coarse fine).1 * 65536#32 + BitVec.ofInt 32 (carry coarse fine).2 =
      coarse * 65536#32 + BitVec.ofInt 32 fine := by
  have hunit : BitVec.ofInt 32 65536 = 65536#32 := rfl
  have hminus : BitVec.ofInt 32 (-65536) = -65536#32 := rfl
  by_cases hover : 32768 < fine
  · rw [carry_above coarse hover, Int.sub_eq_add_neg, BitVec.ofInt_add, hminus]
    grind
  · by_cases hunder : fine < -32768
    · rw [carry_below coarse hunder, BitVec.ofInt_add, hunit]
      grind
    · rw [carry_inside coarse (by omega) (by omega)]

/-- Settles O40: one carry suffices, and it moves a whole carrier spacing from one register to the other. -/
theorem carryKeepsTotal : Obligations.CarryKeepsTotal := by
  intro coarse fine hlow hhigh r
  obtain ⟨hmin, hmax⟩ := carry_inRange coarse hlow hhigh
  refine ⟨hmax, hmin, carry_total coarse fine, carry_inside coarse, carry_above coarse, carry_below coarse, ?_⟩
  intro c ph lc lf _
  rw [dphi_eq, dphi_eq, carry_word]

/-! ### The loop and the report -/

/-- The value the loop gives to `FINE` before the carry (R162). -/
def loopFine (c : Cfg) (gamma : CInt) (f : Corrector) : Int :=
  f.fine.toInt + Int.tdiv ((c.loopNum : Int) * arg16 c gamma) (c.loopDen : Int)

theorem freqUpdate_eq (c : Cfg) (sh : Int) (gamma : CInt) (f : Corrector) :
    freqUpdate c sh gamma f = { f with
      coarse := (carry (f.coarse + BitVec.ofInt 32 sh) (loopFine c gamma f)).1
      fine := BitVec.ofInt 32 (carry (f.coarse + BitVec.ofInt 32 sh) (loopFine c gamma f)).2 } := rfl

/-- A loop gain of at most 1 takes `FINE` at most one carry out of range (R162, R349). -/
theorem loopFine_bounds {c : Cfg} (hloop : c.loopNum ≤ c.loopDen) (gamma : CInt) {f : Corrector}
    (h : FineInRange f.fine.toInt) : -65536 ≤ loopFine c gamma f ∧ loopFine c gamma f ≤ 65536 := by
  have hterm := loopTerm_natAbs_le hloop gamma
  obtain ⟨hlow, hhigh⟩ := h
  unfold loopFine
  omega

theorem toInt_ofInt_of_inRange {x : Int} (h : FineInRange x) : (BitVec.ofInt 32 x).toInt = x := by
  obtain ⟨hlow, hhigh⟩ := h
  exact BitVec.toInt_ofInt_eq_self (by decide) (by omega) (by omega)

/-- Settles O41: the loop adds its term to `FINE`, and the carry keeps the total. -/
theorem frequencyLoop : Obligations.FrequencyLoop := by
  intro c sh gamma f _ hloop hlow hhigh
  obtain ⟨hleast, hmost⟩ := loopFine_bounds hloop gamma (f := f) ⟨hlow, hhigh⟩
  have hrange := carry_inRange (f.coarse + BitVec.ofInt 32 sh) hleast hmost
  rw [freqUpdate_eq]
  dsimp only
  rw [toInt_ofInt_of_inRange hrange]
  exact ⟨hrange.2, hrange.1, carry_total _ (loopFine c gamma f), rfl, rfl, rfl⟩

/-- Settles O42: without a change the report is nothing, with one it is one record and the pair it reported. -/
theorem freqReportOnChange : Obligations.FreqReportOnChange := by
  intro s
  simp only [Prod.mk.injEq]
  rcases freqReport_cases s with ⟨h, hsame⟩ | ⟨h, hne⟩
  · rw [h, if_pos hsame]
  · rw [h, if_neg hne]
    rfl

/-! ### The running phase -/

theorem ofNat_succ_mul (n : Nat) (x : Word) : BitVec.ofNat 32 (n + 1) * x = BitVec.ofNat 32 n * x + x := by
  have hone : BitVec.ofNat 32 1 = (1 : Word) := rfl
  rw [BitVec.ofNat_add, hone]
  grind

theorem phaseAfter_eq (step : Word) (n : Nat) (ph : Word) : phaseAfter step n ph = ph + BitVec.ofNat 32 n * step := by
  induction n generalizing ph with
  | zero => simp [phaseAfter]
  | succ n ih =>
    rw [phaseAfter, ih, ofNat_succ_mul]
    grind

/-- Sample `i` is rotated by the phase after `i` increments (R151). -/
theorem rotateAll_getElem? (c : Cfg) (step ph : Word) (ws : List Word) (i : Nat) :
    (rotateAll c step ph ws)[i]? =
      ws[i]?.map fun w => rot c (sample w) (ph + BitVec.ofNat 32 i * step) := by
  induction ws generalizing ph i with
  | nil => rfl
  | cons w ws ih =>
    cases i with
    | zero => simp [rotateAll]
    | succ i =>
      have hphase : ph + step + BitVec.ofNat 32 i * step = ph + BitVec.ofNat 32 (i + 1) * step := by
        rw [ofNat_succ_mul]
        grind
      rw [rotateAll, List.getElem?_cons_succ, List.getElem?_cons_succ, ih, hphase]

/-- A rotator at phase 0 with increment 0 changes nothing (ROT_ID, R182). -/
theorem rotateAll_still (c : Cfg) (ws : List Word) : rotateAll c 0 0 ws = ws.map sample := by
  induction ws with
  | nil => rfl
  | cons w ws ih =>
    rw [rotateAll, show (0 + 0 : Word) = 0 from rfl, ih, rot, if_pos rfl, List.map_cons]

theorem dphi_of_zero (c : Cfg) {f : Corrector} (hcoarse : f.coarse = 0) (hfine : f.fine = 0) : dphi c f = 0 := by
  rw [dphi_eq, hcoarse, hfine]
  exact BitVec.zero_mul

/-- `T_U` increments of a correction by whole carrier spacings are whole turns (R184). -/
theorem turns_whole {c : Cfg} {f : Corrector} (hfine : f.fine = 0) (hsize : c.log2Tu ≤ 16) :
    BitVec.ofNat 32 c.tU * dphi c f = 0 := by
  have hpow : BitVec.ofNat 32 c.tU * BitVec.ofNat 32 (2 ^ (16 - c.log2Tu)) = 65536#32 := by
    rw [← BitVec.ofNat_mul, Cfg.tU, ← Nat.pow_add, Nat.add_sub_cancel' hsize]
  have hturn : (65536#32 * 65536#32 : Word) = 0 := by decide
  calc BitVec.ofNat 32 c.tU * dphi c f
      = f.coarse * 65536#32 * (BitVec.ofNat 32 c.tU * BitVec.ofNat 32 (2 ^ (16 - c.log2Tu))) := by
        rw [dphi_eq, hfine]; grind
    _ = f.coarse * (65536#32 * 65536#32) := by rw [hpow]; grind
    _ = 0 := by rw [hturn]; exact BitVec.mul_zero

/-- The phase after the samples of a step (R151). -/
theorem consume_phase {n : Nat} {s : State} (h : n ≤ s.rb.length) :
    (consume n s).freq.phase = s.freq.phase + BitVec.ofNat 32 n * dphi s.cfg s.freq := by
  change phaseAfter _ (consumedRaw n s).length _ = _
  rw [consumedRaw_length s n h, phaseAfter_eq]

/-- Settles O43: the phase advances by `DPHI` for every sample. -/
theorem phaseAccumulator : Obligations.PhaseAccumulator := by
  intro n s hn
  refine ⟨consume_phase hn, consumedRot_length s n hn, fun i w hi hw => ?_, fun hcoarse hfine hphase => ?_,
    turns_whole⟩
  · rw [consumedRot, rotateAll_getElem?, consumedRaw, List.getElem?_take_of_lt hi, hw, Option.map_some]
  · have hstep := dphi_of_zero s.cfg hcoarse hfine
    constructor
    · rw [consumedRot, hstep, hphase, rotateAll_still, consumedRaw]
    · rw [consume_phase hn, hstep, hphase]
      exact (BitVec.zero_add _).trans BitVec.mul_zero

end Sys2Proof.Machine
end

section
/-! The records of a session per CIF, and the time de-interleaver as the inverse of the transmitter's delays (R243 to
R246, R254 to R260). -/

namespace Sys2Proof.Machine

set_option Elab.async false

/-! ### The de-interleaver, one push -/

/-- The next CIF gives the decoder a vector: the session uses no de-interleaver, or at least 15 CIFs are in it
(R243, R244). -/
def Session.YieldsVector (x : Session) : Prop := x.desc.tdiEn = false ∨ 15 ≤ x.tdiCnt.toNat

theorem tdiResult_tdiPush_eq_none (v : List Soft) {x : Session} (h : x.tdiCnt.toNat < 15) :
    tdiResult (tdiPush v x) = none := by
  refine if_pos (?_ : (nextTdiCnt x.tdiCnt).toNat < 16)
  rw [nextTdiCnt_toNat]
  omega

theorem tdiResult_tdiPush_eq_some (v : List Soft) {x : Session} (h : 15 ≤ x.tdiCnt.toNat) :
    ∃ w, tdiResult (tdiPush v x) = some w := by
  refine ⟨_, if_neg (?_ : ¬ (nextTdiCnt x.tdiCnt).toNat < 16)⟩
  rw [nextTdiCnt_toNat]
  omega

/-! ### One session, one CIF -/

theorem sessionCif_of_mismatch (c : Cfg) (id : Fin 64) (v : List Soft) {x : Session} (h : x.mismatch = true) :
    sessionCif c id v x = (x, [evDecodeError id x.errcode]) := if_pos h

/-- While its de-interleaver fills, a session takes the vector and yields nothing (R244, R243). -/
theorem sessionCif_of_filling (c : Cfg) (id : Fin 64) (v : List Soft) {x : Session} (hok : x.mismatch = false)
    (h : ¬ x.YieldsVector) : sessionCif c id v x = (tdiPush v x, []) := by
  obtain ⟨hen, hcnt⟩ := not_or.mp h
  simp [sessionCif, hok, hen, tdiResult_tdiPush_eq_none v (Nat.lt_of_not_le hcnt)]

/-- A full de-interleaver, or none: one logical frame is delivered, to a session whose descriptor and superframe buffer
are those before the push (R243). -/
theorem sessionCif_of_yieldsVector (c : Cfg) (id : Fin 64) (v : List Soft) {x : Session} (hok : x.mismatch = false)
    (h : x.YieldsVector) : ∃ fr y, sessionCif c id v x = deliver id fr y ∧ y.desc = x.desc ∧
      y.sfFill = x.sfFill ∧ y.sfBuf = x.sfBuf := by
  cases hen : x.desc.tdiEn with
  | false => exact ⟨logicalFrame c x.desc v, x, by simp [sessionCif, hok, hen], rfl, rfl, rfl⟩
  | true =>
    obtain ⟨w, hw⟩ := tdiResult_tdiPush_eq_some v (h.resolve_left (by simp [hen]))
    exact ⟨logicalFrame c (tdiPush v x).desc w, tdiPush v x, by simp [sessionCif, hok, hen, hw], rfl, rfl, rfl⟩

/-! ### The delivery of a logical frame, by session type -/

theorem deliver_raw (id : Fin 64) (fr : List Byte) {x : Session} (h : x.desc.type = 0) :
    deliver id fr x = (x, rawFrame id fr) := by
  simp [deliver, h]

theorem deliver_dab (id : Fin 64) (fr : List Byte) {x : Session} (h : x.desc.type = 1) :
    deliver id fr x = (x, dabFrame id x.desc.fcEn fr) := by
  simp [deliver, h]

theorem deliver_dabplus (id : Fin 64) (fr : List Byte) {x : Session} (h : x.desc.type = 2) :
    deliver id fr x = sfPush id fr x := by
  simp [deliver, h]

/-- The frame after four others is the fifth of the superframe buffer (R296). -/
theorem withFrame_sfFill_eq_five (fr : List Byte) (x : Session) : (withFrame fr x).sfFill = 5 ↔ x.sfFill = 4 :=
  BitVec.add_left_inj (x := x.sfFill) (y := 4) (z := 1)

theorem sfPush_of_short (id : Fin 64) (fr : List Byte) {x : Session} (h : x.sfFill ≠ 4) :
    sfPush id fr x = (withFrame fr x, []) := by
  rw [sfPush_eq, if_neg (mt (withFrame_sfFill_eq_five fr x).mp h)]

/-- The fifth frame triggers an attempt, which empties the buffer or drops the oldest frame (R296, R297). -/
theorem sfPush_of_four (id : Fin 64) (fr : List Byte) {x : Session} (h : x.sfFill = 4) :
    ((sfPush id fr x).2.map (·.code) = [0x0C, 0x0D, 0x0E] ∧ (sfPush id fr x).1.sfFill = 0 ∧
      (sfPush id fr x).1.sfBuf = []) ∨
    ((sfPush id fr x).2.map (·.code) = [0x0C, 0x0D] ∧ (sfPush id fr x).1.sfFill = 4 ∧
      (sfPush id fr x).1.sfBuf.length = x.sfBuf.length) := by
  rw [sfPush_eq, if_pos ((withFrame_sfFill_eq_five fr x).mpr h)]
  obtain ⟨_, _, _, hpass | hfail⟩ := sfAttempt_cases id (withFrame fr x)
  · rw [hpass]
    exact .inl ⟨rfl, rfl, rfl⟩
  · rw [hfail]
    exact .inr ⟨rfl, rfl, by simp [withFrame]⟩

/-- Settles O56: a mismatch and a filling de-interleaver end the service before a frame exists; after that the session
type and the fill of the superframe buffer decide. -/
theorem sessionEventCounts : Obligations.SessionEventCounts := by
  intro c id v x
  refine ⟨sessionCif_sub c id v x, (sessionCif_advances c id v x).desc, sessionCif_of_mismatch c id v,
    fun hok h => ?_, fun hok h htype => ?_, fun hok h htype => ?_, fun hok h htype hfill => ?_,
    fun hok h htype hfill => ?_⟩
  · rw [sessionCif_of_filling c id v hok h]
  all_goals
    obtain ⟨fr, y, hr, hdesc, hsf, hbuf⟩ := sessionCif_of_yieldsVector c id v hok h
    rw [← hdesc] at htype
    rw [hr]
  · rw [deliver_raw id fr htype]; rfl
  · rw [deliver_dab id fr htype]; rfl
  · rw [deliver_dabplus id fr htype, sfPush_of_short id fr (hsf ▸ hfill), ← hsf]
    exact ⟨rfl, rfl⟩
  · rw [deliver_dabplus id fr htype, ← hbuf]
    exact sfPush_of_four id fr (hsf ▸ hfill)

/-! ### The de-interleaver, many pushes -/

theorem tdiDelay_le (j : Nat) : tdiDelay j ≤ 15 := by
  rcases Nat.lt_or_ge j 16 with h | h
  · exact (by decide : ∀ j < 16, tdiDelay j ≤ 15) j h
  · rw [tdiDelay, List.getD_eq_getElem?_getD, List.getElem?_eq_none h]
    exact Nat.zero_le 15

/-- A window of `k + 1` elements that takes one more drops its last. -/
theorem take_cons_take {α : Type} (a : α) (l : List α) (k : Nat) :
    (a :: l.take (k + 1)).take (k + 1) = (a :: l).take (k + 1) := by
  rw [List.take_succ_cons, List.take_take, Nat.min_eq_left (Nat.le_succ k), List.take_succ_cons]

/-- The push shifts the window of the newest 16 vectors (R244). -/
theorem foldl_tdiPush (sent : Nat → List Soft) {x : Session} (hempty : x.tdiH = []) (hcnt : x.tdiCnt = 0) (n : Nat) :
    (List.range n).foldl (fun z k => tdiPush (sent k) z) x =
      { x with tdiH := ((List.range n).reverse.map sent).take 16, tdiCnt := BitVec.ofNat 5 (min n 16) } := by
  induction n with
  | zero => cases x; cases hempty; cases hcnt; rfl
  | succ n ih =>
    have hnext : nextTdiCnt (BitVec.ofNat 5 (min n 16)) = BitVec.ofNat 5 (min (n + 1) 16) := by
      apply BitVec.eq_of_toNat_eq
      simp only [nextTdiCnt_toNat, BitVec.toNat_ofNat]
      omega
    rw [List.range_succ, List.foldl_append, ih, List.foldl_cons, List.foldl_nil, List.reverse_append,
      List.reverse_singleton, List.singleton_append, List.map_cons]
    simp only [tdiPush, hnext, take_cons_take]

/-- The vectors of CIFs 0 to `n`, newest first. -/
theorem map_reverse_range_succ {α : Type} (f : Nat → α) (n : Nat) :
    (List.range (n + 1)).reverse.map f = (List.range (n + 1)).map fun j => f (n - j) := by
  refine List.ext_getElem (by simp only [List.length_map, List.length_reverse]) fun i _ _ => ?_
  simp only [List.getElem_map, List.getElem_reverse, List.getElem_range, List.length_range, Nat.add_sub_cancel]

/-- Position `j` of the window holds the vector received `j` CIFs before (R244). -/
theorem window_getD (sent : Nat → List Soft) {n j : Nat} (hn : 15 ≤ n) (hj : j < 16) :
    (((List.range (n + 1)).map fun k => sent (n - k)).take 16).getD j [] = sent (n - j) := by
  have hrange : j < n + 1 := by omega
  simp [List.getD_eq_getElem?_getD, List.getElem?_take_of_lt hj, List.getElem?_range hrange]

/-- The transmitter's delay `M` and the window's `15 - M` add up to 15 CIFs for every bit (R244). -/
theorem tdiOut_window {v sent : Nat → List Soft} {m n : Nat} (hlen : ∀ n, (v n).length = m)
    (hsent : ∀ n i, i < m → tdiDelay (i % 16) ≤ n → (sent n).getD i 0 = (v (n - tdiDelay (i % 16))).getD i 0)
    (hn : 15 ≤ n) : tdiOut m (((List.range (n + 1)).map fun j => sent (n - j)).take 16) = v (n - 15) := by
  refine List.ext_getElem (by simp [tdiOut, hlen]) fun i hi hiv => ?_
  have him : i < m := hlen (n - 15) ▸ hiv
  have hdelay := tdiDelay_le (i % 16)
  have hback : n - (15 - tdiDelay (i % 16)) - tdiDelay (i % 16) = n - 15 := by omega
  calc (tdiOut m _)[i]
      = (sent (n - (15 - tdiDelay (i % 16)))).getD i 0 := by
        simp only [tdiOut, List.getElem_map, List.getElem_range]
        rw [window_getD sent hn (by omega)]
    _ = (v (n - 15)).getD i 0 := by rw [hsent _ i him (by omega), hback]
    _ = (v (n - 15))[i] := by
        rw [List.getD_eq_getElem?_getD, List.getElem?_eq_getElem hiv, Option.getD_some]

/-- Settles O57: the window holds the newest 16 vectors, and it has 16 of them from CIF 15 on. -/
theorem tdiInvertsInterleaver : Obligations.TdiInvertsInterleaver := by
  intro x v sent hempty hcnt hlen hsent n
  have hfold := foldl_tdiPush sent hempty hcnt (n + 1)
  rw [map_reverse_range_succ] at hfold
  have htoNat : (BitVec.ofNat 5 (min (n + 1) 16)).toNat = min (n + 1) 16 := by
    rw [BitVec.toNat_ofNat]
    omega
  dsimp only
  rw [hfold]
  refine ⟨rfl, rfl, htoNat, fun hn => if_pos ?_, fun hn => ?_⟩
  · exact Nat.lt_of_le_of_lt (Nat.le_of_eq htoNat) (by omega)
  · rw [tdiResult, if_neg (htoNat.symm ▸ (by omega : ¬ min (n + 1) 16 < 16))]
    exact congrArg some (tdiOut_window hlen hsent hn)

end Sys2Proof.Machine
end

section
/-! The descrambler: the register after some shifts, the bit it yields there, and the period of its states (R271,
R272). -/

namespace Sys2Proof.Machine

set_option Elab.async false

/-! ### The shift register -/

/-- The register after `i` shifts from the start (R271). -/
def prbsReg : Nat → BitVec 9
  | 0 => prbsStart
  | i + 1 => prbsNext (prbsReg i)

theorem prbsReg_succ (i : Nat) : prbsReg (i + 1) = prbsNext (prbsReg i) := rfl

theorem prbsNext_getLsbD_zero (reg : BitVec 9) : (prbsNext reg).getLsbD 0 = prbsBit reg :=
  BitVec.getLsbD_append.trans (by simp)

theorem prbsNext_getLsbD_succ (reg : BitVec 9) {k : Nat} (hk : k < 8) :
    (prbsNext reg).getLsbD (k + 1) = reg.getLsbD k :=
  BitVec.getLsbD_append.trans (by simp [hk])

/-- The register holds the last nine bits that were yielded, the newest in stage 0. -/
theorem prbsReg_getLsbD (i : Nat) {k : Nat} (hk : k < 9) :
    (prbsReg (i + k + 1)).getLsbD k = prbsBit (prbsReg i) := by
  induction k with
  | zero => rw [Nat.add_zero, prbsReg_succ, prbsNext_getLsbD_zero]
  | succ k ih => rw [prbsReg_succ, prbsNext_getLsbD_succ _ (by omega), ← Nat.add_assoc, ih (by omega)]

theorem prbsBit_recurrence (i : Nat) :
    prbsBit (prbsReg (i + 9)) = (prbsBit (prbsReg i) ^^ prbsBit (prbsReg (i + 4))) := by
  rw [prbsBit, prbsReg_getLsbD i (k := 8) (by omega), prbsReg_getLsbD (i + 4) (k := 4) (by omega)]

/-- Nine equal bits in a row make equal registers after them. -/
theorem prbsReg_eq_of_bits_eq {a b : Nat} (h : ∀ j < 9, prbsBit (prbsReg (a + j)) = prbsBit (prbsReg (b + j))) :
    prbsReg (a + 9) = prbsReg (b + 9) := by
  refine BitVec.eq_of_getLsbD_eq fun k hk => ?_
  have hstage (c : Nat) : (prbsReg (c + 9)).getLsbD k = prbsBit (prbsReg (c + (8 - k))) := by
    rw [← prbsReg_getLsbD _ hk, show c + (8 - k) + k + 1 = c + 9 by omega]
  rw [hstage, hstage, h _ (by omega)]

/-! ### The period of the register -/

/-- The register goes on alike from equal states. -/
theorem prbsReg_add_eq {a b : Nat} (h : prbsReg a = prbsReg b) (i : Nat) : prbsReg (a + i) = prbsReg (b + i) := by
  induction i with
  | zero => exact h
  | succ i ih => rw [← Nat.add_assoc, ← Nat.add_assoc, prbsReg_succ, prbsReg_succ, ih]

theorem prbsReg_mul_add {p : Nat} (h : prbsReg p = prbsReg 0) (k i : Nat) : prbsReg (p * k + i) = prbsReg i := by
  induction k with
  | zero => rw [Nat.mul_zero, Nat.zero_add]
  | succ k ih => rw [Nat.mul_succ, Nat.add_comm (p * k), Nat.add_assoc, prbsReg_add_eq h, Nat.zero_add, ih]

theorem prbsReg_eq_of_dvd {d m : Nat} (h : prbsReg d = prbsReg 0) (hdvd : d ∣ m) : prbsReg m = prbsReg 0 := by
  obtain ⟨k, rfl⟩ := hdvd
  exact prbsReg_mul_add h k 0

/-- Two numbers of shifts that return to the start give their greatest common divisor as a third: Euclid's steps only
take multiples off. -/
theorem prbsReg_gcd {m n : Nat} (hm : prbsReg m = prbsReg 0) (hn : prbsReg n = prbsReg 0) :
    prbsReg (m.gcd n) = prbsReg 0 := by
  induction m, n using Nat.gcd.induction with
  | H0 n => rwa [Nat.gcd_zero_left]
  | H1 m n _ ih =>
    have hmod : prbsReg (n % m) = prbsReg 0 := by rw [← prbsReg_mul_add hm (n / m), Nat.div_add_mod, hn]
    rw [Nat.gcd_rec]
    exact ih hmod hm

theorem prbsReg_511 : prbsReg 511 = prbsReg 0 := by decide +kernel

theorem prbsReg_add_511 (i : Nat) : prbsReg (i + 511) = prbsReg i := by
  rw [Nat.add_comm, prbsReg_add_eq prbsReg_511, Nat.zero_add]

/-- A return after fewer shifts than 511 = 7 * 73 would be one after 7 or after 73 shifts, and there is none. -/
theorem prbsReg_ne_start {p : Nat} (hpos : 0 < p) (hp : p < 511) : prbsReg p ≠ prbsReg 0 := by
  intro hreturn
  have hgcd : prbsReg (p.gcd 511) = prbsReg 0 := prbsReg_gcd hreturn prbsReg_511
  have hlt : p.gcd 511 < 511 := Nat.lt_of_le_of_lt (Nat.gcd_le_left 511 hpos) hp
  have hproper : ∀ d < 511, d ∣ 511 → d ∣ 7 ∨ d ∣ 73 := by decide +kernel
  rcases hproper _ hlt (Nat.gcd_dvd_right p 511) with h7 | h73
  · exact absurd (prbsReg_eq_of_dvd hgcd h7) (by decide)
  · exact absurd (prbsReg_eq_of_dvd hgcd h73) (by decide +kernel)

/-- A shift by `p` that keeps the first 511 bits brings the register back to its start, as it keeps nine bits in a
row. -/
theorem prbsReg_eq_start_of_bits_eq {p : Nat}
    (h : ∀ i < 511, prbsBit (prbsReg (i + p)) = prbsBit (prbsReg i)) : prbsReg p = prbsReg 0 := by
  have hend : prbsReg (502 + p + 9) = prbsReg (502 + 9) :=
    prbsReg_eq_of_bits_eq fun j hj => by rw [Nat.add_right_comm, h _ (by omega)]
  rwa [show 502 + p + 9 = p + 511 by omega, prbsReg_add_511, prbsReg_511] at hend

theorem exists_prbsBit_add_ne {p : Nat} (hpos : 0 < p) (hp : p < 511) :
    ∃ i < 511, prbsBit (prbsReg (i + p)) ≠ prbsBit (prbsReg i) := by
  refine Classical.byContradiction fun hnone => ?_
  refine prbsReg_ne_start hpos hp (prbsReg_eq_start_of_bits_eq fun i hi => ?_)
  exact Classical.byContradiction fun hne => hnone ⟨i, hi, hne⟩

/-! ### The sequence and the descrambled vector -/

theorem prbsFrom_prbsReg_getD (k : Nat) {i n : Nat} (hi : i < n) :
    (prbsFrom (prbsReg k) n).getD i false = prbsBit (prbsReg (k + i)) := by
  induction n generalizing k i with
  | zero => omega
  | succ n ih =>
    cases i with
    | zero => rfl
    | succ i =>
      rw [← Nat.add_assoc, Nat.add_right_comm]
      exact ih (k + 1) (Nat.lt_of_succ_lt_succ hi)

theorem prbsFrom_prbsStart_getD {i n : Nat} (hi : i < n) :
    (prbsFrom prbsStart n).getD i false = prbsBit (prbsReg i) :=
  (prbsFrom_prbsReg_getD 0 hi).trans (by rw [Nat.zero_add])

theorem descramble_getD (u : List Bool) {i : Nat} (hi : i < u.length) :
    (descramble u).getD i false = (u.getD i false ^^ (prbsFrom prbsStart u.length).getD i false) := by
  simp [descramble, List.getD_eq_getElem?_getD, hi]

theorem descramble_descramble (u : List Bool) : descramble (descramble u) = u := by
  refine List.ext_getElem (by simp) fun i _ hi => ?_
  simp [descramble]

/-- Settles O58: the bits are read off the register, which returns to its start after 511 shifts and not before. -/
theorem descramblerSequence : Obligations.DescramblerSequence := by
  unfold Obligations.DescramblerSequence
  dsimp only
  have hstart : ∀ i < 9, prbsBit (prbsReg i) = decide (5 ≤ i) := by decide
  refine ⟨fun i n hi hi9 => ?_, fun i n hi hi9 => ?_, fun i n hi => ?_, fun p hpos hp => ?_,
    fun u i hi => descramble_getD u hi, fun u => ⟨descramble_descramble u, descramble_length u⟩⟩
  · rw [prbsFrom_prbsStart_getD hi, hstart i hi9]
  · obtain ⟨j, rfl⟩ := Nat.exists_eq_add_of_le' hi9
    rw [prbsFrom_prbsStart_getD hi, prbsFrom_prbsStart_getD (by omega), prbsFrom_prbsStart_getD (by omega),
      Nat.add_sub_cancel, prbsBit_recurrence, show j + 9 - 5 = j + 4 by omega]
  · rw [prbsFrom_prbsStart_getD (by omega), prbsFrom_prbsStart_getD hi, prbsReg_add_511]
  · obtain ⟨i, hi, hne⟩ := exists_prbsBit_add_ne hpos hp
    refine ⟨i, hi, ?_⟩
    rwa [prbsFrom_prbsStart_getD (by omega), prbsFrom_prbsStart_getD (by omega)]

end Sys2Proof.Machine
end
